-- ==== Sys2Proof/Word.lean ====
section
/-! DEFINITION. The word types of the framer: bytes, frames, the sequencer's code, the indices and the reading
(00_scope.md R7, R8; 10_state.md R21 to R25). -/

namespace Sys2Proof

/-- "The byte is 8 bits everywhere" (R7). -/
abbrev Byte := BitVec 8

/-- "A frame is a finite sequence of bytes" (R7); the head is byte 0, the first on the wire (R8). -/
abbrev Frame := List Byte

/-- A code of the 4-bit register SEQ (R25, R80). -/
abbrev SeqCode := BitVec 4

/-- The 4-bit counts RXLEN and TXI (R22, R23). -/
abbrev Index := BitVec 4

/-- The reading and the gauge PPM: an unsigned 16-bit number (R7, R35). -/
abbrev Reading := BitVec 16

/-- The opaque information a serial channel gives with a fault: a token nothing inspects (R151, log 20). -/
abbrev FaultInfo := Nat

/-! The ten legal codes of SEQ (R25). -/

abbrev sStarting : SeqCode := 0#4
abbrev sWait : SeqCode := 1#4
abbrev sIter : SeqCode := 2#4
abbrev sCall : SeqCode := 3#4
abbrev sTx : SeqCode := 4#4
abbrev sRx : SeqCode := 5#4
abbrev sCheck : SeqCode := 6#4
abbrev sCollect : SeqCode := 7#4
abbrev sTally : SeqCode := 8#4
abbrev sStopped : SeqCode := 9#4

end Sys2Proof
end

