-- ==== Sys2Proof/Config.lean ====
section
/-! DEFINITION. What an implementation fixes (00_scope.md R6), and the free values: constants with no body, of which no
proof can know the value. -/

namespace Sys2Proof

/-! ## Constants the source states (R6, R50) -/

/-- The request frame REQ, byte 0 first (R50, R71): "constant for this sensor model; no mutable state". -/
def Config.req : Frame := [0xFF, 0x01, 0x86, 0x00, 0x00, 0x00, 0x00, 0x00, 0x79]

/-- REQ_LEN, the bytes of the request (R6). -/
def Config.reqLen : Nat := 9

/-- RX_MAX, the greatest number of bytes one read collects (R6). -/
def Config.rxMax : Nat := 9

/-- MIN_LEN, the least length of an inspectable response (R6). -/
def Config.minLen : Nat := 4

/-- HDR0 of the response's "fixed marker pair" (R6). -/
def Config.hdr0 : Byte := 0xFF

/-- HDR1 of the response's "fixed marker pair" (R6). -/
def Config.hdr1 : Byte := 0x86

/-! ## Parameters of the serial channel (R6, R150, R221), which the source fixes: recorded, used by no rule (log 23) -/

/-- READ_TIMEOUT of the serial channel in milliseconds: 1.0 second. -/
def Config.readTimeoutMs : Nat := 1000

/-- BAUD of the serial channel. -/
def Config.baud : Nat := 9600

/-- DATA_BITS of the serial channel. -/
def Config.dataBits : Nat := 8

/-- PARITY of the serial channel: none. -/
def Config.parity : Bool := false

/-- STOP_BITS of the serial channel. -/
def Config.stopBits : Nat := 1

/-! ## Parameters a platform chooses before reset is released (R6, log 3) -/

/-- TIME_UNIT where nothing sets it (log 30). DESIGN CHOICE: OPEN, with no default in the spec, so a constant with no body. -/
opaque Config.openTimeUnit : Nat

/-- SENSOR_NAME where nothing sets it (log 30). DESIGN CHOICE: OPEN, with no default in the spec. -/
opaque Config.openSensorName : String

/-- One entry of READERS: the CO2 reader, or the external reader `k` (R6, D10). -/
inductive Reader where
  | carbon
  | ext (k : Nat)
deriving DecidableEq, Repr

/-- The parameters of R6 that a platform chooses, with the defaults of R6. They are no state of the block and no operation
writes them; they stand in State so that a claim over every state is a claim over every choice of them. The last three are
for what stands outside the block, and no rule reads them. -/
structure Params where
  /-- MAX_CONSECUTIVE_FAILS. -/
  maxFails : Nat := 10
  /-- READERS, "in a fixed, deterministic order". -/
  readers : List Reader := [.carbon]
  /-- ITER_W, the width of ITER. -/
  iterW : Nat := 32
  /-- CNT_W, the width of READS and READ_ERRS. -/
  cntW : Nat := 32
  /-- FAIL_W, the width of FAILCNT. -/
  failW : Nat := 4
  /-- TIME_W, the width of the time value, START_TIME and UPTIME. -/
  timeW : Nat := 32
  /-- POLL_INTERVAL in milliseconds, "handed to the interval port" (R6, R157). -/
  pollIntervalMs : Nat := 1000
  /-- TIME_UNIT, what one unit of the time value is, in nanoseconds: OPEN (R6, U10, log 30). -/
  timeUnit : Nat := Config.openTimeUnit
  /-- SENSOR_NAME, the prefix of metric names, "used only outside the block": OPEN (R6, R162, log 30). -/
  sensorName : String := Config.openSensorName
deriving DecidableEq, Repr

/-- NREADERS (R6). -/
abbrev Params.nReaders (p : Params) : Nat := p.readers.length

/-- The index in READERS of the carbon reader (the length of READERS if it has none). -/
def Params.carbonIndex (p : Params) : Nat := p.readers.findIdx (· = .carbon)

/-- The legal parameters (R6, R182 BadConfiguration, U4, U5): MAX_CONSECUTIVE_FAILS from 1 to 2^FAIL_W - 1, and exactly
one CARBON in READERS (so READERS is not empty). -/
def Params.legal (p : Params) : Bool :=
  decide (1 ≤ p.maxFails) && decide (p.maxFails < 2 ^ p.failW) && decide (p.readers.count .carbon = 1)

/-! ## Free values -/

/-- FREE VALUE (log 6). DESIGN CHOICE: what `Now()` answers when State holds no answer for it; the argument is the counter
`draws`. "successive answers are draws under no law" (R156). -/
opaque Config.nowAnswer : Nat → Nat

/-- Reset value of START_TIME (log 1). DESIGN CHOICE: the spec gives "no value" (R41, R42), "some bit pattern that no
source fixes". -/
opaque Config.resetStartTime : Nat

/-- Reset value of ALLOK (log 1). DESIGN CHOICE: the spec gives "no value". -/
opaque Config.resetAllok : Bool

/-- Reset value of RES (log 1). DESIGN CHOICE: the spec gives "no value". -/
opaque Config.resetRes : Bool

/-- Reset value of RXB[i] (log 1). DESIGN CHOICE: the spec gives "no value". -/
opaque Config.resetRxb : Nat → Byte

end Sys2Proof
end

