-- ==== Sys2Proof/Syntax.lean ====
section
/-! DEFINITION. The operations of the block as syntax: one constructor for each row of opcode_table.json, with the events,
metrics, log entries and results their operands need. -/

namespace Sys2Proof

/-! ## Metrics (43_ports.md R162) -/

/-- The two counters of the metrics sink, the operands of `MetricInc` (R153, R162). -/
inductive Counter where
  | reads
  | readErrs
deriving DecidableEq, Repr

/-- The two gauges of the metrics sink, the operands of `MetricSet` (R154, R162). -/
inductive Gauge where
  | uptime
  | co2Ppm
deriving DecidableEq, Repr

/-- The number of a counter's metric id: M_READS 2, M_READ_ERRS 3 (R162). -/
def Counter.number : Counter → Nat
  | .reads => 2
  | .readErrs => 3

/-- The number of a gauge's metric id: M_UPTIME 0, M_CO2_PPM 1 (R162). -/
def Gauge.number : Gauge → Nat
  | .uptime => 0
  | .co2Ppm => 1

/-! ## Failures (60_exceptions.md R170) -/

/-- What CLASSIFY answers (40_codec.md R93). -/
inductive Verdict where
  | ok
  | short
  | badHdr
  | badSum (s t : Byte)
deriving DecidableEq, Repr

/-- The causes of class ProtocolInvalid (R170). -/
inductive ProtoCause where
  | short
  | badHdr
  | badSum
deriving DecidableEq, Repr

/-- The cause code logged with READ_INVALID (R170, D19). -/
def ProtoCause.code : ProtoCause → Nat
  | .short => 1
  | .badHdr => 2
  | .badSum => 3

/-- A read failure with what it records: three of class ProtocolInvalid and one of class TransportFault (R170). -/
inductive Failure where
  | short
  | badHdr
  | badSum (s t : Byte)
  | transport (info : FaultInfo)
deriving DecidableEq, Repr

/-- The cause code of a read failure, 1 to 4 (R170). -/
def Failure.code : Failure → Nat
  | .short => 1
  | .badHdr => 2
  | .badSum _ _ => 3
  | .transport _ => 4

/-! ## Log entries and events (43_ports.md R155; 10_state.md R44) -/

/-- A diagnostic: its kind and the payload that kind carries (R155). -/
inductive LogEntry where
  | chksumMismatch (s t : Byte)
  | readInvalid (cause : ProtoCause) (rxlen : Index)
  | transportFault (info : FaultInfo)
deriving DecidableEq, Repr

/-- The number of a log entry's kind (R155). -/
def LogEntry.kindNumber : LogEntry → Nat
  | .chksumMismatch _ _ => 1
  | .readInvalid _ _ => 2
  | .transportFault _ => 3

/-- The events of the output trace OUT (R44). -/
inductive Event where
  | tx (b : Byte)
  | inc (m : Counter)
  | set (m : Gauge) (v : Nat)
  | log (e : LogEntry)
  | started
  | report (n : Nat)
deriving DecidableEq, Repr

/-! ## The operations -/

/-- One constructor for each row of opcode_table.json, in the table's order. A DECODE form carries the bytes after the
header, the last one the trailer (30_encoding.md R72). The sequencer's rows have no operands: they read the state. -/
inductive Instr where
  | buildreq
  | decode4 (ppmh cs : Byte)
  | decode5 (ppmh ppml cs : Byte)
  | decode6 (ppmh ppml p4 cs : Byte)
  | decode7 (ppmh ppml p4 p5 cs : Byte)
  | decode8 (ppmh ppml p4 p5 p6 cs : Byte)
  | decode9 (ppmh ppml p4 p5 p6 p7 cs : Byte)
  | chksum (resp : Frame)
  | classify (resp : Frame)
  | validate (resp : Frame)
  | plStart
  | plWait
  | plIter
  | rdBegin
  | plCallx
  | rdTxb
  | rdFaultTx
  | rdRxb
  | rdRxend
  | rdFaultRx
  | rdChkok
  | rdChkfail
  | plCollect
  | plTally
  | plHalt
  | reset
  | serTx (b : Byte)
  | serRx
  | metricInc (m : Counter)
  | metricSet (m : Gauge) (v : Nat)
  | log (e : LogEntry)
  | now
  | intervalWait
  | extRefresh (k : Nat)
  | report (n : Nat)
  | emit (e : Event)
deriving DecidableEq, Repr

end Sys2Proof
end

