-- ==== Sys2Proof/Machine/Frame.lean ====
section
/-! DEFINITION. The frame codec as pure functions of a byte sequence (40_codec.md R90 to R99): they read nothing but their
operand and write nothing. -/

namespace Sys2Proof.Machine

/-- BUILDREQ as a function: the constant request (R90). -/
def buildRequest : Frame := Config.req

/-- S of R92: the bytes with indices 1 to n-2, added one after another modulo 256. -/
def frameSum (resp : Frame) : Byte := (resp.tail.dropLast).foldl (· + ·) 0

/-- T of R92: the last byte, the trailer. -/
def frameTrailer (resp : Frame) : Byte := resp.getLastD 0

/-- CHKSUM as a function (R92): `(S, T)` for a sequence of two bytes or more; "for n < 2 it is not defined". -/
def checksum (resp : Frame) : Option (Byte × Byte) :=
  if resp.length < 2 then none else some (frameSum resp, frameTrailer resp)

/-- The header test of R93: bytes 0 and 1 are the marker pair. -/
def headerOk (resp : Frame) : Bool :=
  decide (resp[0]? = some Config.hdr0) && decide (resp[1]? = some Config.hdr1)

/-- The checksum condition of R75: `(S + T) mod 256 = 0`. -/
def sumOk (resp : Frame) : Bool := decide (frameSum resp + frameTrailer resp = 0)

/-- CLASSIFY as a function, "the tests in exactly this order" (R93). -/
def classifyFrame (resp : Frame) : Verdict :=
  if resp.length < Config.minLen then .short
  else if !headerOk resp then .badHdr
  else if !sumOk resp then .badSum (frameSum resp) (frameTrailer resp)
  else .ok

/-- VALIDATE as a function (R94). -/
def validateFrame (resp : Frame) : Bool := decide (classifyFrame resp = .ok)

/-- The assembly of the reading (R74): byte 2 is the high byte, byte 3 the low one. -/
def assembleReading (resp : Frame) : Reading :=
  (resp.getD 2 0).setWidth 16 * 256#16 + (resp.getD 3 0).setWidth 16

/-- DECODE as a function (R96): the reading of a valid sequence; no value for any other (U1). -/
def decodeReading (resp : Frame) : Option Reading :=
  if validateFrame resp then some (assembleReading resp) else none

/-- The response sequence a DECODE form stands for: the header and then its own bytes (30_encoding.md R72). -/
def respFrame (body : Frame) : Frame := Config.hdr0 :: Config.hdr1 :: body

end Sys2Proof.Machine
end

