-- ==== Sys2Proof/WellFormed.lean ====
section
/-! DEFINITION. Which instructions are well formed: their operands are ones the spec admits, under the parameters `p`. -/

namespace Sys2Proof

/-- A log entry's length field is a legal RXLEN, 0 to 9 (43_ports.md R155). -/
def LogEntry.wf : LogEntry → Bool
  | .readInvalid _ n => decide (n ≤ 9#4)
  | _ => true

/-- A gauge's value is an unsigned integer of the metric's width (R154, R162). -/
def Gauge.fits (p : Params) : Gauge → Nat → Bool
  | .uptime, v => decide (v < 2 ^ p.timeW)
  | .co2Ppm, v => decide (v < 2 ^ 16)

/-- An event is one that a port primitive can append (R44, R151 to R160). -/
def Event.wf (p : Params) : Event → Bool
  | .set m v => m.fits p v
  | .log e => e.wf
  | .report n => decide (n < 2 ^ p.iterW)
  | _ => true

/-- Well-formed instructions. A DECODE form is one on a valid frame (R96), CHKSUM is defined on two bytes or more (R92),
the values of gauges, logs and reports have their widths (R154, R155, R159), and ExtRefresh names an entry `EXT(k)` of
READERS (R158). -/
def Instr.wf (p : Params) : Instr → Bool
  | .decode4 h cs => Machine.validateFrame (Machine.respFrame [h, cs])
  | .decode5 h l cs => Machine.validateFrame (Machine.respFrame [h, l, cs])
  | .decode6 h l a cs => Machine.validateFrame (Machine.respFrame [h, l, a, cs])
  | .decode7 h l a b cs => Machine.validateFrame (Machine.respFrame [h, l, a, b, cs])
  | .decode8 h l a b c cs => Machine.validateFrame (Machine.respFrame [h, l, a, b, c, cs])
  | .decode9 h l a b c d cs => Machine.validateFrame (Machine.respFrame [h, l, a, b, c, d, cs])
  | .chksum resp => decide (2 ≤ resp.length)
  | .metricSet m v => m.fits p v
  | .log e => e.wf
  | .extRefresh k => p.readers.contains (.ext k)
  | .report n => decide (n < 2 ^ p.iterW)
  | .emit e => e.wf p
  | .buildreq | .classify _ | .validate _ => true
  | .plStart | .plWait | .plIter | .plCallx | .plCollect | .plTally | .plHalt => true
  | .rdBegin | .rdTxb | .rdFaultTx | .rdRxb | .rdRxend | .rdFaultRx | .rdChkok | .rdChkfail => true
  | .reset | .serTx _ | .serRx | .metricInc _ | .now | .intervalWait => true

end Sys2Proof
end

