-- ==== Sys2Proof/Decode.lean ====
section
/-! DEFINITION. Reading bits as operations (30_encoding.md): a wire frame as BUILDREQ or a DECODE form, a 4-bit code of
SEQ as the rows it selects, and the encoder back. CHKSUM, CLASSIFY and VALIDATE have no encoding of their own, RESET and
the port primitives no bits at all (R82). -/

namespace Sys2Proof

/-- Why a byte sequence is none of the seven frame forms (R70, R77). -/
inductive DecodeError where
  /-- Fewer than 4 bytes: "A frame of 0 to 3 bytes is not a form" (R70). -/
  | short
  /-- The first two bytes are not the marker pair (R77). -/
  | badHdr
  /-- More than 9 bytes, which no read delivers (R79). -/
  | long
deriving DecidableEq, Repr

/-- The fields of a response after its header, by its length (R72). The match is on the header only; whether the
checksum condition holds is well-formedness (log 16). -/
def decodeBody (f : Frame) : Except DecodeError Instr :=
  match f.length with
  | 0 => .error .short
  | 1 => .error .short
  | 2 => .ok (.decode4 (f.getD 0 0) (f.getD 1 0))
  | 3 => .ok (.decode5 (f.getD 0 0) (f.getD 1 0) (f.getD 2 0))
  | 4 => .ok (.decode6 (f.getD 0 0) (f.getD 1 0) (f.getD 2 0) (f.getD 3 0))
  | 5 => .ok (.decode7 (f.getD 0 0) (f.getD 1 0) (f.getD 2 0) (f.getD 3 0) (f.getD 4 0))
  | 6 => .ok (.decode8 (f.getD 0 0) (f.getD 1 0) (f.getD 2 0) (f.getD 3 0) (f.getD 4 0) (f.getD 5 0))
  | 7 => .ok (.decode9 (f.getD 0 0) (f.getD 1 0) (f.getD 2 0) (f.getD 3 0) (f.getD 4 0) (f.getD 5 0) (f.getD 6 0))
  | _ => .error .long

/-- A wire frame as the operation that produces or consumes it (R70 to R73, R82): total, rejecting by name. -/
def decodeFrame (f : Frame) : Except DecodeError Instr :=
  if f = Config.req then .ok .buildreq
  else
    match f with
    | h0 :: h1 :: body =>
      if body.length < 2 then .error .short
      else if h0 = Config.hdr0 ∧ h1 = Config.hdr1 then decodeBody body
      else if 7 < body.length then .error .long
      else .error .badHdr
    | _ => .error .short

/-- The rows a code of SEQ selects, in the table's order; the state condition and the port's answer pick among them
(R81). The codes 10 to 15 select none (R80). -/
def decodeSeq (c : SeqCode) : List Instr :=
  match c.toNat with
  | 0 => [.plStart]
  | 1 => [.plWait]
  | 2 => [.plIter]
  | 3 => [.rdBegin, .plCallx]
  | 4 => [.rdTxb, .rdFaultTx]
  | 5 => [.rdRxb, .rdRxend, .rdFaultRx]
  | 6 => [.rdChkok, .rdChkfail]
  | 7 => [.plCollect]
  | 8 => [.plTally]
  | 9 => [.plHalt]
  | _ => []

/-- The bits of an operation: a wire frame, a code of SEQ, or none (R82). -/
inductive Encoding where
  | frame (f : Frame)
  | seq (c : SeqCode)
  | uncoded
deriving DecidableEq, Repr

/-- The encoder, from the table's rows. -/
def encode : Instr → Encoding
  | .buildreq => .frame [0xFF, 0x01, 0x86, 0x00, 0x00, 0x00, 0x00, 0x00, 0x79]
  | .decode4 h cs => .frame [0xFF, 0x86, h, cs]
  | .decode5 h l cs => .frame [0xFF, 0x86, h, l, cs]
  | .decode6 h l a cs => .frame [0xFF, 0x86, h, l, a, cs]
  | .decode7 h l a b cs => .frame [0xFF, 0x86, h, l, a, b, cs]
  | .decode8 h l a b c cs => .frame [0xFF, 0x86, h, l, a, b, c, cs]
  | .decode9 h l a b c d cs => .frame [0xFF, 0x86, h, l, a, b, c, d, cs]
  | .plStart => .seq 0x0
  | .plWait => .seq 0x1
  | .plIter => .seq 0x2
  | .rdBegin => .seq 0x3
  | .plCallx => .seq 0x3
  | .rdTxb => .seq 0x4
  | .rdFaultTx => .seq 0x4
  | .rdRxb => .seq 0x5
  | .rdRxend => .seq 0x5
  | .rdFaultRx => .seq 0x5
  | .rdChkok => .seq 0x6
  | .rdChkfail => .seq 0x6
  | .plCollect => .seq 0x7
  | .plTally => .seq 0x8
  | .plHalt => .seq 0x9
  | .chksum _ | .classify _ | .validate _ => .uncoded
  | .reset | .serTx _ | .serRx | .metricInc _ | .metricSet _ _ | .log _ | .now | .intervalWait => .uncoded
  | .extRefresh _ | .report _ | .emit _ => .uncoded

/-- `n` bytes from a number whose most significant byte is byte 0 (R8). -/
def bytesOf (w : Nat) : Nat → Frame
  | 0 => []
  | n + 1 => BitVec.ofNat 8 (w >>> (8 * n)) :: bytesOf w n

/-- The bytes of a table row that is a frame, byte 0 most significant (R8). A row of 16 bits is the header of a response of
any length, here the longest, its further bytes 0 (log 19). -/
def tableFrame (nbits w : Nat) : Frame :=
  if nbits = 16 then bytesOf w 2 ++ [0, 0, 0, 0, 0, 0, 0] else bytesOf w (nbits / 8)

/-- The instruction read from the bits of a table row (log 19). A row of 4 bits (8 in whole bytes) is a code of SEQ and
answers the first row in the table's order with that code; a row of 16 bits is the response header that CHKSUM, CLASSIFY
and VALIDATE share, and answers the first of them; any other is a wire frame. -/
def decodeTableWord (nbits w : Nat) : Option Instr :=
  if nbits = 4 ∨ nbits = 8 then
    if w < 16 then (decodeSeq (BitVec.ofNat 4 w)).head? else none
  else if nbits = 16 then
    if bytesOf w 2 = [Config.hdr0, Config.hdr1] then some (.chksum (tableFrame nbits w)) else none
  else if nbits % 8 = 0 ∧ nbits ≤ 72 then
    match decodeFrame (tableFrame nbits w) with
    | .ok i => some i
    | .error _ => none
  else none

end Sys2Proof
end

