-- ==== Sys2Proof/Machine/State.lean ====
section
/-! DEFINITION. The state of the block (10_state.md R20, R41), what the environment holds ready for it, and the reasons a
step can stop. -/

namespace Sys2Proof.Machine

/-! ## The environment (43_ports.md) -/

/-- The serial channel's answers to `SerTx` (R151). -/
inductive TxAnswer where
  | accepted
  | fault (info : FaultInfo)
deriving DecidableEq, Repr

/-- The serial channel's answers to `SerRx` (R152). -/
inductive RxAnswer where
  | byte (b : Byte)
  | timeout
  | fault (info : FaultInfo)
deriving DecidableEq, Repr

/-- The answers the ports are going to give, first one first, a queue for each port (log 5). An empty queue is a port that
has not answered yet; for `now`, which always answers (R156), it is a free value (log 6). -/
structure Env where
  /-- Answers to `SerTx`. -/
  tx : List TxAnswer := []
  /-- Answers to `SerRx`. -/
  rx : List RxAnswer := []
  /-- Answers to `Now`. -/
  now : List Nat := []
  /-- Answers to `ExtRefresh`, in the order the block asks. -/
  ext : List Bool := []
  /-- How many times the interval port is going to report an interval over. -/
  ticks : Nat := 0
deriving DecidableEq, Repr

/-- What a codec function or a port primitive returned to its caller (log 11). -/
inductive Ret where
  | none
  /-- BUILDREQ's frame (R90). -/
  | frame (f : Frame)
  /-- CHKSUM's pair (R92). -/
  | sums (s t : Byte)
  /-- CLASSIFY's result (R93). -/
  | verdict (v : Verdict)
  /-- VALIDATE's result (R94). -/
  | valid (b : Bool)
  /-- DECODE's reading (R96). -/
  | reading (v : Reading)
  /-- The answer of `SerTx` (R151). -/
  | tx (a : TxAnswer)
  /-- The answer of `SerRx` (R152). -/
  | rx (a : RxAnswer)
  /-- The answer of `Now` (R156). -/
  | time (t : Nat)
  /-- The completion of `IntervalWait`, which has no content (R157). -/
  | tick
  /-- The answer of `ExtRefresh` (R158). -/
  | ext (r : Bool)
deriving DecidableEq, Repr

/-! ## Stops -/

/-- The counters that can stand at the top of their range (R182). -/
inductive Overflow where
  | iter
  | reads
  | readErrs
deriving DecidableEq, Repr

/-- The faults: the model-level faults of 60_exceptions.md R182 and one like them. -/
inductive Fault where
  /-- `CounterOverflow(x)` (R182, U3): raised by PL.ITER at the top of ITER's range (R143), and by MetricInc, RD.BEGIN,
  RD.CHKFAIL and RD.FAULT at the top of a metric counter's (R153). Safe: the source gives no behaviour there (log 18). -/
  | counterOverflow (x : Overflow)
  /-- `DecodeUnvalidated` (R182, U1): raised by the DECODE forms, evaluated on their own, on a frame that does not
  validate; no step of the block raises it. Safe: the spec refuses to give it a value (log 17). -/
  | decodeUnvalidated
  /-- Raised by CHKSUM, evaluated on its own, on fewer than two bytes: "for n < 2 it is not defined" (R92); no step of the
  block raises it. Safe (log 17). -/
  | checksumUndefined
deriving DecidableEq, Repr

/-- The refusals: what is outside the model. -/
inductive Refusal where
  /-- An instruction with no meaning yet; answered by an arm of exec alone. Safe. -/
  | notModelled (mnemonic : String)
  /-- `BadConfiguration` (R182, U4, U5): the parameters are not legal; answered by the step in place of any operation.
  Safe (log 3). -/
  | badConfiguration
  /-- `BadSeq` (R182, U7): SEQ holds a code 10 to 15; answered by the step. Safe (log 2). -/
  | badSeq (c : SeqCode)
  /-- The operation's selection or guard is false in this state (R11, R81), so it does not execute; answered by the
  meanings of the sequencer's operations when they are called in such a state. Safe (log 13). -/
  | notSelected
  /-- SEQ holds a legal code but an index register is outside its legal values, so that R81 has no row (R22, R23, R27,
  R81 "never reached"); answered by the step. Safe (log 14). -/
  | illegalState
deriving DecidableEq, Repr

/-! ## The state -/

/-- The sixteen elements of R20, then the model's own fields. Counters and time values, whose widths are parameters, are
numbers below 2 to their width (log 4). -/
structure State where
  /-- SEQ, the sequencer (R25). -/
  seq : SeqCode
  /-- ITER, the iteration count (R31). -/
  iter : Nat
  /-- FAILCNT, the consecutive-failure counter (R32). -/
  failcnt : Nat
  /-- START_TIME (R33). -/
  startTime : Nat
  /-- UPTIME (R34). -/
  uptime : Nat
  /-- PPM (R35). -/
  ppm : Reading
  /-- PPM_VALID (R30). -/
  ppmValid : Bool
  /-- READS (R36). -/
  reads : Nat
  /-- READ_ERRS (R37). -/
  readErrs : Nat
  /-- RXLEN (R22). -/
  rxlen : Index
  /-- TXI (R23). -/
  txi : Index
  /-- SIDX (R27). -/
  sidx : Nat
  /-- ALLOK (R28). -/
  allok : Bool
  /-- RES (R29). -/
  res : Bool
  /-- RXB[0..8], the receive buffer (R21). -/
  rxb : Vector Byte 9
  /-- OUT, the output trace, oldest event first (R44). -/
  out : List Event
  /-- The model's own: the parameters (R6, log 3). No operation writes them. -/
  params : Params
  /-- The model's own: the answers the ports are going to give (log 5). -/
  env : Env
  /-- The model's own: the index of the next free answer of `Now()` (log 6). -/
  draws : Nat
  /-- The model's own: what the last codec function or port primitive returned (log 11). -/
  ret : Ret
  /-- The model's own: the host asserts reset, its one input to the block (R161, R200, log 9). -/
  resetReq : Bool
deriving DecidableEq, Repr

/-- The state after reset (R41) of a block with the parameters `p`. START_TIME, ALLOK, RES and RXB, which the spec gives
no value, hold named constants of Config (log 1). -/
def State.resetWith (p : Params) : State where
  seq := sStarting
  iter := 0
  failcnt := 0
  startTime := Config.resetStartTime % 2 ^ p.timeW
  uptime := 0
  ppm := 0
  ppmValid := false
  reads := 0
  readErrs := 0
  rxlen := 0
  txi := 0
  sidx := 0
  allok := Config.resetAllok
  res := Config.resetRes
  rxb := #v[Config.resetRxb 0, Config.resetRxb 1, Config.resetRxb 2, Config.resetRxb 3, Config.resetRxb 4,
    Config.resetRxb 5, Config.resetRxb 6, Config.resetRxb 7, Config.resetRxb 8]
  out := []
  params := p
  env := {}
  draws := 0
  ret := .none
  resetReq := false

/-- The machine right after reset (R41, R201), with the default parameters of R6. -/
def State.reset : State := State.resetWith {}

end Sys2Proof.Machine
end

