-- ==== Sys2Proof/Machine/Flags.lean ====
section
/-! DEFINITION. The three flags (10_state.md R28 to R30) and everything that computes one. There are no condition codes and
no arithmetic flags. -/

namespace Sys2Proof.Machine

/-- RES <- b (R29). -/
def State.setRes (s : State) (b : Bool) : State := { s with res := b }

/-- ALLOK <- b (R28). -/
def State.setAllok (s : State) (b : Bool) : State := { s with allok := b }

/-- PPM_VALID <- 1 (R30); nothing but reset clears it. -/
def State.setPpmValid (s : State) : State := { s with ppmValid := true }

/-- The value PL.COLLECT gives ALLOK: ALLOK and RES (R135). -/
def collectedOk (s : State) : Bool := s.allok && s.res

end Sys2Proof.Machine
end

