-- ==== Sys2Proof/Machine/Operands.lean ====
section
/-! DEFINITION. The operand forms: REQ[TXI], the receive buffer and RESP, READERS[SIDX], the time difference, and the views
of the state that the rules name. -/

namespace Sys2Proof.Machine

/-- `REQ[i]` (R10, R50): the byte RD.TXB sends at index TXI, through BUILDREQ (R82). -/
def reqByte (i : Index) : Byte := buildRequest.getD i.toNat 0

/-- `MemRead(a, n)` (R10, R53): the bytes RXB[a] to RXB[a+n-1], "defined only when a + n <= RXLEN". -/
def memRead (s : State) (a n : Nat) : Option Frame :=
  if a + n ≤ s.rxlen.toNat ∧ a + n ≤ Config.rxMax then some ((s.rxb.toList.drop a).take n) else none

/-- RXB[i] as a rule can read it: a byte below RXLEN, else no value (R42, R53). -/
def rxByte (s : State) (i : Nat) : Option Byte :=
  if i < s.rxlen.toNat then s.rxb[i]? else none

/-- RESP (R24): `MemRead(0, RXLEN)`, the received frame. It is there for every legal RXLEN. -/
def resp (s : State) : Option Frame := memRead s 0 s.rxlen.toNat

/-- The index RD.RXB stores at (R53, R113). -/
def storeIndex (s : State) : Nat := s.rxlen.toNat

/-- `MemWrite(RXLEN, 1, b)` (R10, R53): performed only with RXLEN < 9. -/
def memWrite (s : State) (b : Byte) : State :=
  if h : storeIndex s < 9 then { s with rxb := s.rxb.set (storeIndex s) b h } else s

/-- READERS[SIDX] (R27, R81). -/
def currentReader (s : State) : Option Reader := s.params.readers[s.sidx]?

/-- `t -_TIME_W START_TIME` (R10, R133): subtraction modulo 2 to the width of the time value. -/
def timeSince (s : State) (t : Nat) : Nat :=
  (BitVec.ofNat s.params.timeW t - BitVec.ofNat s.params.timeW s.startTime).toNat

/-- The source's poll states (R26). -/
inductive PState where
  | starting
  | running
  | stopped
deriving DecidableEq, Repr

/-- PSTATE, a view of SEQ (R26); none for the codes 10 to 15. -/
def pstate (s : State) : Option PState :=
  if s.seq = sStarting then some .starting
  else if s.seq = sStopped then some .stopped
  else if s.seq < sStopped then some .running
  else none

/-- TXS, the bytes the channel has accepted: the sub-list of TX events of OUT (R52). -/
def txStream (out : List Event) : Frame :=
  out.filterMap fun e => match e with
    | .tx b => some b
    | _ => none

/-- What a host reads (R38, R161): a number or the nine bytes of the buffer. -/
inductive HostValue where
  | num (n : Nat)
  | bytes (bs : Frame)
deriving DecidableEq, Repr

/-- The host's read-only view under the labels S0 to S14 (R20, R38): labels, no addresses. OUT is read as it stands. -/
def hostRead (s : State) : Nat → Option HostValue
  | 0 => some (.num s.seq.toNat)
  | 1 => some (.num s.iter)
  | 2 => some (.num s.failcnt)
  | 3 => some (.num s.startTime)
  | 4 => some (.num s.uptime)
  | 5 => some (.num s.ppm.toNat)
  | 6 => some (.num s.ppmValid.toNat)
  | 7 => some (.num s.reads)
  | 8 => some (.num s.readErrs)
  | 9 => some (.num s.rxlen.toNat)
  | 10 => some (.num s.txi.toNat)
  | 11 => some (.num s.sidx)
  | 12 => some (.num s.allok.toNat)
  | 13 => some (.num s.res.toNat)
  | 14 => some (.bytes s.rxb.toList)
  | _ => none

end Sys2Proof.Machine
end

