-- ==== Sys2Proof/Machine/Ops.lean ====
section
/-! DEFINITION. The named operations the meanings are made of: control transfer, the trace, the port primitives (43_ports.md)
and the entry of a read failure (60_exceptions.md R176). There is no return from a failure: "failure entry changes nothing
that would need restoring" (R180). -/

namespace Sys2Proof.Machine

/-- The outcomes of a step of this machine. -/
abbrev Result := Host.Outcome State Fault Refusal

/-- `SEQ <- c` (R10): the control transfer. -/
def State.setSeq (s : State) (c : SeqCode) : State := { s with seq := c }

/-- `Emit(e)` (R10, R44): append an event to OUT. -/
def State.emit (s : State) (e : Event) : State := { s with out := s.out ++ [e] }

/-- What a codec function or port primitive returns to its caller (log 11). -/
def State.setRet (s : State) (r : Ret) : State := { s with ret := r }

/-- A fault ends the run; otherwise there is a next state. -/
def ofExcept : Except Fault State → Result
  | .ok s => .next s
  | .error f => .fault f

/-! ## Port primitives -/

/-- `MetricInc(m)` (R153): the register of m plus 1 and the event INC(m); at the top of the range CounterOverflow(m). -/
def metricInc (m : Counter) (s : State) : Except Fault State :=
  match m with
  | .reads =>
    if s.reads + 1 < 2 ^ s.params.cntW then .ok ({ s with reads := s.reads + 1 }.emit (.inc .reads))
    else .error (.counterOverflow .reads)
  | .readErrs =>
    if s.readErrs + 1 < 2 ^ s.params.cntW then .ok ({ s with readErrs := s.readErrs + 1 }.emit (.inc .readErrs))
    else .error (.counterOverflow .readErrs)

/-- `MetricSet(m, v)` (R154): the register of m is overwritten with v, an unsigned integer of the metric's width, and the
event SET(m, v) appended (log 27). -/
def metricSet (m : Gauge) (v : Nat) (s : State) : State :=
  match m with
  | .uptime => { s with uptime := v % 2 ^ s.params.timeW }.emit (.set .uptime (v % 2 ^ s.params.timeW))
  | .co2Ppm => { s with ppm := BitVec.ofNat 16 v }.emit (.set .co2Ppm (v % 2 ^ 16))

/-- `Log(kind, payload)` (R155). -/
def logEvent (e : LogEntry) (s : State) : State := s.emit (.log e)

/-- `Report(n)` (R159). -/
def report (n : Nat) (s : State) : State := s.emit (.report n)

/-- `Now()` (R156): it always answers, at once, with TIME_W bits; with no answer in State, a free value (log 6). -/
def takeNow (s : State) : Nat × State :=
  match s.env.now with
  | t :: rest => (t % 2 ^ s.params.timeW, { s with env := { s.env with now := rest } })
  | [] => (Config.nowAnswer s.draws % 2 ^ s.params.timeW, { s with draws := s.draws + 1 })

/-- The channel's answer to `SerTx` and the state after it is taken; none while the channel has not answered (R151). -/
def takeTx (s : State) : Option (TxAnswer × State) :=
  match s.env.tx with
  | a :: rest => some (a, { s with env := { s.env with tx := rest } })
  | [] => none

/-- The channel's answer to `SerRx`; the byte it gives "is removed from the channel" (R58, R152). -/
def takeRx (s : State) : Option (RxAnswer × State) :=
  match s.env.rx with
  | a :: rest => some (a, { s with env := { s.env with rx := rest } })
  | [] => none

/-- The interval port's report that the interval is over (R157). -/
def takeTick (s : State) : Option State :=
  match s.env.ticks with
  | n + 1 => some { s with env := { s.env with ticks := n } }
  | 0 => none

/-- An external reader's answer to `ExtRefresh` (R158). -/
def takeExt (s : State) : Option (Bool × State) :=
  match s.env.ext with
  | r :: rest => some (r, { s with env := { s.env with ext := rest } })
  | [] => none

/-! ## Failure entry -/

/-- The failure a verdict of CLASSIFY stands for (R117, R170); none for OK. -/
def failureOf : Verdict → Option Failure
  | .ok => none
  | .short => some .short
  | .badHdr => some .badHdr
  | .badSum a b => some (.badSum a b)

/-- Step (1) of R176: for BADSUM only, the checksum diagnostic (R95). -/
def failureFirstLog (f : Failure) (s : State) : State :=
  match f with
  | .badSum a b => logEvent (.chksumMismatch a b) s
  | _ => s

/-- The one log entry of step (3) of R176: READ_INVALID with the cause and RXLEN, or TRANSPORT_FAULT. -/
def failureLog (f : Failure) (rxlen : Index) : LogEntry :=
  match f with
  | .short => .readInvalid .short rxlen
  | .badHdr => .readInvalid .badHdr rxlen
  | .badSum _ _ => .readInvalid .badSum rxlen
  | .transport info => .transportFault info

/-- `raise <Failure>(info)`: what a read failure does, for every cause, in the order of R176. -/
def raiseFailure (f : Failure) (s : State) : Except Fault State :=
  match metricInc .readErrs (failureFirstLog f s) with
  | .error e => .error e
  | .ok s' => .ok (((logEvent (failureLog f s.rxlen) s').setRes false).setSeq sCollect)

end Sys2Proof.Machine
end

