-- ==== Sys2Proof/Machine/Codec.lean ====
section
/-! DEFINITION. The meanings of the codec rows (40_codec.md): each returns its function's value and writes no state of the
block (R99). -/

namespace Sys2Proof.Machine

/-- DECODE of a response given by its bytes after the header (R96): the reading, or the fault DecodeUnvalidated on a frame
that does not validate (R182, U1). -/
def decodeOf (body : Frame) (s : State) : Result :=
  match decodeReading (respFrame body) with
  | some v => .next (s.setRet (.reading v))
  | none => .fault .decodeUnvalidated

/-- BUILDREQ (R90). -/
def execBuildreq (s : State) : Result := .next (s.setRet (.frame buildRequest))

/-- DECODE of form RESP4: byte 3 is low byte and trailer at once (R72, R96, C5). -/
def execDecode4 (ppmh cs : Byte) (s : State) : Result := decodeOf [ppmh, cs] s

/-- DECODE of form RESP5 (R72, R96). -/
def execDecode5 (ppmh ppml cs : Byte) (s : State) : Result := decodeOf [ppmh, ppml, cs] s

/-- DECODE of form RESP6 (R72, R96). -/
def execDecode6 (ppmh ppml p4 cs : Byte) (s : State) : Result := decodeOf [ppmh, ppml, p4, cs] s

/-- DECODE of form RESP7 (R72, R96). -/
def execDecode7 (ppmh ppml p4 p5 cs : Byte) (s : State) : Result := decodeOf [ppmh, ppml, p4, p5, cs] s

/-- DECODE of form RESP8 (R72, R96). -/
def execDecode8 (ppmh ppml p4 p5 p6 cs : Byte) (s : State) : Result := decodeOf [ppmh, ppml, p4, p5, p6, cs] s

/-- DECODE of form RESP9 (R73, R96). -/
def execDecode9 (ppmh ppml p4 p5 p6 p7 cs : Byte) (s : State) : Result :=
  decodeOf [ppmh, ppml, p4, p5, p6, p7, cs] s

/-- CHKSUM (R92); "for n < 2 it is not defined" (log 17). -/
def execChksum (resp : Frame) (s : State) : Result :=
  match checksum resp with
  | some (a, b) => .next (s.setRet (.sums a b))
  | none => .fault .checksumUndefined

/-- CLASSIFY (R93). -/
def execClassify (resp : Frame) (s : State) : Result := .next (s.setRet (.verdict (classifyFrame resp)))

/-- VALIDATE (R94); the diagnostic of R95 belongs to the calling operation. -/
def execValidate (resp : Frame) (s : State) : Result := .next (s.setRet (.valid (validateFrame resp)))

end Sys2Proof.Machine
end

