-- ==== Sys2Proof/Machine/Select.lean ====
section
/-! DEFINITION. Which operation runs: the selection table R81, the holds (70_reset_and_hazards.md R214), and placing an
instruction so that the next step runs it. -/

namespace Sys2Proof.Machine

/-- CLASSIFY(RESP), where RESP is there. -/
def respVerdict (s : State) : Option Verdict := (resp s).map classifyFrame

/-- READERS[SIDX] is an external reader. -/
def atExternal (s : State) : Bool :=
  match currentReader s with
  | some (.ext _) => true
  | _ => false

/-- The selection and guard of each operation of the sequencer: SEQ, the state condition and the port's answer, as its row
of R81 has them. The other instructions are not selected by the state (R82). -/
def enabled (i : Instr) (s : State) : Bool :=
  match i with
  | .plStart => s.seq = sStarting
  | .plWait => s.seq = sWait && (s.iter = 0 || s.env.ticks ≠ 0)
  | .plIter => s.seq = sIter
  | .rdBegin => s.seq = sCall && currentReader s = some .carbon
  | .plCallx => s.seq = sCall && atExternal s && s.env.ext ≠ []
  | .rdTxb => s.seq = sTx && s.txi < 9#4 && s.env.tx.head? = some .accepted
  | .rdFaultTx =>
    s.seq = sTx && s.txi < 9#4 && (match s.env.tx with
      | .fault _ :: _ => true
      | _ => false)
  | .rdRxb =>
    s.seq = sRx && s.rxlen < 9#4 && (match s.env.rx with
      | .byte _ :: _ => true
      | _ => false)
  | .rdRxend => s.seq = sRx && (s.rxlen = 9#4 || (s.rxlen < 9#4 && s.env.rx.head? = some .timeout))
  | .rdFaultRx =>
    s.seq = sRx && s.rxlen < 9#4 && (match s.env.rx with
      | .fault _ :: _ => true
      | _ => false)
  | .rdChkok => s.seq = sCheck && respVerdict s = some .ok
  | .rdChkfail => s.seq = sCheck && (match respVerdict s with
      | some .ok => false
      | some _ => true
      | none => false)
  | .plCollect => s.seq = sCollect
  | .plTally => s.seq = sTally
  | .plHalt => s.seq = sStopped
  | .buildreq | .decode4 _ _ | .decode5 _ _ _ | .decode6 _ _ _ _ | .decode7 _ _ _ _ _ => false
  | .decode8 _ _ _ _ _ _ | .decode9 _ _ _ _ _ _ _ | .chksum _ | .classify _ | .validate _ => false
  | .reset | .serTx _ | .serRx | .metricInc _ | .metricSet _ _ | .log _ | .now | .intervalWait => false
  | .extRefresh _ | .report _ | .emit _ => false

/-- A meaning runs only where its operation is selected and its guard holds (R11); elsewhere it is refused (log 13). -/
def guarded (i : Instr) (s : State) (run : Result) : Result :=
  if enabled i s then run else .refused .notSelected

/-- The four places where the block is held, waiting for one answer (R214). -/
def held (s : State) : Bool :=
  (s.seq = sWait && s.iter ≠ 0 && s.env.ticks = 0)
    || (s.seq = sCall && atExternal s && s.env.ext = [])
    || (s.seq = sTx && s.txi < 9#4 && s.env.tx = [])
    || (s.seq = sRx && s.rxlen < 9#4 && s.env.rx = [])

/-- What the sequencer does next. -/
inductive Choice where
  /-- The operation R81 selects. -/
  | run (i : Instr)
  /-- No step until a port answers (R214). -/
  | held
  /-- SEQ holds a code 10 to 15 (U7). -/
  | badSeq
  /-- A legal code and no row (log 14). -/
  | illegal
deriving DecidableEq, Repr

/-- The selection (R81): of the rows with SEQ's code, the one whose condition and answer hold. -/
def choose (s : State) : Choice :=
  match (decodeSeq s.seq).find? (enabled · s) with
  | some i => .run i
  | none => if sStopped < s.seq then .badSeq else if held s then .held else .illegal

/-! ## Placing an instruction (log 19) -/

/-- What the first row with SEQ's code needs beside the code itself. -/
def arrange (c : SeqCode) (s : State) : State :=
  match c.toNat with
  | 1 => if s.iter = 0 then s else { s with env := { s.env with ticks := s.env.ticks + 1 } }
  | 3 => { s with sidx := s.params.carbonIndex }
  | 4 =>
    { s with
      txi := if s.txi < 9#4 then s.txi else 0
      env := { s.env with tx := .accepted :: s.env.tx } }
  | 5 =>
    { s with
      rxlen := if s.rxlen < 9#4 then s.rxlen else 0
      env := { s.env with rx := .byte 0 :: s.env.rx } }
  | 6 =>
    { s with
      rxlen := 4
      rxb := ((((s.rxb.set 0 0xFF).set 1 0x86).set 2 0x00).set 3 0x7A) }
  | _ => s

/-- A received response that waits for its check: the bytes in RXB, their number in RXLEN, SEQ at S_CHECK. -/
def placeResponse (r : Frame) (s : State) : State :=
  { s with
    seq := sCheck
    rxlen := BitVec.ofNat 4 r.length
    rxb := #v[r.getD 0 0, r.getD 1 0, r.getD 2 0, r.getD 3 0, r.getD 4 0, r.getD 5 0, r.getD 6 0, r.getD 7 0, r.getD 8 0] }

/-- The state in which the next step runs the instruction whose table bits are `w`: SEQ at the code, with what its row
needs; for a codec function, which only RD.TXB, RD.CHKOK and RD.CHKFAIL invoke (R82), the operation that invokes it on
that frame: BUILDREQ as RD.TXB at TXI 0, the others as the check of a received response. -/
def placeWord (nbits w : Nat) (s : State) : State :=
  if nbits = 4 ∨ nbits = 8 then
    { arrange (BitVec.ofNat 4 w) s with seq := BitVec.ofNat 4 w, resetReq := false }
  else
    match decodeTableWord nbits w with
    | some .buildreq => { arrange sTx s with seq := sTx, txi := 0, resetReq := false }
    | some _ => { placeResponse (tableFrame nbits w) s with resetReq := false }
    | none => s

end Sys2Proof.Machine
end

