-- ==== Sys2Proof/Machine/Poll.lean ====
section
/-! DEFINITION. The meanings of the poll loop's rows (42_pollloop.md). -/

namespace Sys2Proof.Machine

/-- PL.START (R131): `START_TIME <- t; Emit(STARTED); SEQ <- S_WAIT`. -/
def execPlStart (s : State) : Result :=
  guarded .plStart s (.next (({ (takeNow s).2 with startTime := (takeNow s).1 }.emit .started).setSeq sWait))

/-- PL.WAIT (R132): `SEQ <- S_ITER`; from the second iteration on it takes the interval port's report. -/
def execPlWait (s : State) : Result :=
  guarded .plWait s
    (if s.iter = 0 then .next (s.setSeq sIter)
    else
      match takeTick s with
      | some s' => .next (s'.setSeq sIter)
      | none => .refused .notSelected)

/-- PL.ITER (R133): count, publish the uptime, ALLOK <- 1, SIDX <- 0; CounterOverflow(ITER) at the top (R143). -/
def execPlIter (s : State) : Result :=
  guarded .plIter s
    (if s.iter + 1 < 2 ^ s.params.iterW then
      let s1 := { (takeNow s).2 with iter := s.iter + 1 }
      let s2 := (metricSet .uptime (timeSince s (takeNow s).1) s1).setAllok true
      .next ({ s2 with sidx := 0 }.setSeq sCall)
    else .fault (.counterOverflow .iter))

/-- PL.CALLX (R134): `RES <- r; SEQ <- S_COLLECT`. -/
def execPlCallx (s : State) : Result :=
  guarded .plCallx s
    (match takeExt s with
    | some (r, s') => .next ((s'.setRes r).setSeq sCollect)
    | none => .refused .notSelected)

/-- PL.COLLECT (R135): `ALLOK <- ALLOK and RES; SIDX <- SIDX + 1`; to S_TALLY after the last reader, else to S_CALL. -/
def execPlCollect (s : State) : Result :=
  guarded .plCollect s
    (.next (({ s with sidx := s.sidx + 1 }.setAllok (collectedOk s)).setSeq
      (if s.sidx + 1 = s.params.nReaders then sTally else sCall)))

/-- The updated FAILCNT of PL.TALLY: "once per iteration, not once per failed sensor" (R136, C2, C3). -/
def tallied (s : State) : Nat := if s.allok then 0 else s.failcnt + 1

/-- PL.TALLY (R136): FAILCNT, and the stop when it reaches MAX_CONSECUTIVE_FAILS (R175). -/
def execPlTally (s : State) : Result :=
  guarded .plTally s
    (.next
      (if tallied s = s.params.maxFails then (report s.iter { s with failcnt := tallied s }).setSeq sStopped
      else { s with failcnt := tallied s }.setSeq sWait))

/-- PL.HALT (R137): "no state changes, no event is emitted" (log 8). -/
def execPlHalt (s : State) : Result := guarded .plHalt s (.next s)

end Sys2Proof.Machine
end

