-- ==== Sys2Proof/Machine/Ports.lean ====
section
/-! DEFINITION. The meanings of the port primitives' rows on their own (43_ports.md), and of RESET
(70_reset_and_hazards.md R200). A primitive that waits for an answer which is not there leaves everything as it is: it is
held (log 12). -/

namespace Sys2Proof.Machine

/-- SerTx (R151): on `accepted` the event TX(b); on `fault(info)` the byte is not written. -/
def execSerTx (b : Byte) (s : State) : Result :=
  match takeTx s with
  | some (.accepted, s') => .next ((s'.emit (.tx b)).setRet (.tx .accepted))
  | some (.fault info, s') => .next (s'.setRet (.tx (.fault info)))
  | none => .next s

/-- SerRx (R152): the channel's answer is taken and returned; receiving is no output. -/
def execSerRx (s : State) : Result :=
  match takeRx s with
  | some (a, s') => .next (s'.setRet (.rx a))
  | none => .next s

/-- MetricInc (R153). -/
def execMetricInc (m : Counter) (s : State) : Result := ofExcept (metricInc m s)

/-- MetricSet (R154). -/
def execMetricSet (m : Gauge) (v : Nat) (s : State) : Result := .next (metricSet m v s)

/-- Log (R155). -/
def execLog (e : LogEntry) (s : State) : Result := .next (logEvent e s)

/-- Now (R156): it always answers. -/
def execNow (s : State) : Result := .next ((takeNow s).2.setRet (.time (takeNow s).1))

/-- IntervalWait (R157): a hold that the interval port's answer lifts. -/
def execIntervalWait (s : State) : Result :=
  match takeTick s with
  | some s' => .next (s'.setRet .tick)
  | none => .next s

/-- ExtRefresh (R158): the boolean result of external reader `k`; the answers stand in the order the block asks, so which
reader is asked plays no part. -/
def execExtRefresh (_k : Nat) (s : State) : Result :=
  match takeExt s with
  | some (r, s') => .next (s'.setRet (.ext r))
  | none => .next s

/-- Report (R159). -/
def execReport (n : Nat) (s : State) : Result := .next (report n s)

/-- Emit (R10, R160). -/
def execEmit (e : Event) (s : State) : Result := .next (s.emit e)

/-- RESET (R200): every element takes its reset value and OUT becomes empty. The parameters are no state (R43), and
"Reset does nothing to the collaborators": what the ports hold ready stays (log 9). -/
def execReset (s : State) : Result :=
  .next { State.resetWith s.params with env := s.env, draws := s.draws }

end Sys2Proof.Machine
end

