-- ==== Sys2Proof/Machine/Reader.lean ====
section
/-! DEFINITION. The meanings of the carbon reader's rows (41_reader.md). -/

namespace Sys2Proof.Machine

/-- RD.BEGIN (R111): `MetricInc(M_READS); TXI <- 0; RXLEN <- 0; SEQ <- S_TX`. -/
def execRdBegin (s : State) : Result :=
  guarded .rdBegin s
    (match metricInc .reads s with
    | .ok s' => .next ({ s' with txi := 0, rxlen := 0 }.setSeq sTx)
    | .error e => .fault e)

/-- RD.TXB (R112): `TX(REQ[TXI]); TXI <- TXI + 1`; the ninth acceptance moves to S_RX. -/
def execRdTxb (s : State) : Result :=
  guarded .rdTxb s
    (match takeTx s with
    | some (_, s') =>
      .next ({ s'.emit (.tx (reqByte s.txi)) with txi := s.txi + 1 }.setSeq (if s.txi + 1 = 9#4 then sRx else sTx))
    | none => .refused .notSelected)

/-- RD.RXB (R113): `RXB[RXLEN] <- b; RXLEN <- RXLEN + 1`, SEQ stays. -/
def execRdRxb (s : State) : Result :=
  guarded .rdRxb s
    (match takeRx s with
    | some (.byte b, s') => .next { memWrite s' b with rxlen := s.rxlen + 1 }
    | _ => .refused .notSelected)

/-- RD.RXEND (R114): `SEQ <- S_CHECK`; at RXLEN = 9 the channel is not asked (D36), below it its timeout is taken. -/
def execRdRxend (s : State) : Result :=
  guarded .rdRxend s
    (if s.rxlen = 9#4 then .next (s.setSeq sCheck)
    else
      match takeRx s with
      | some (_, s') => .next (s'.setSeq sCheck)
      | none => .refused .notSelected)

/-- RD.FAULT in S_TX (R115): the channel answers `fault(info)` to SerTx; raise TransportFault(info). -/
def execRdFaultTx (s : State) : Result :=
  guarded .rdFaultTx s
    (match takeTx s with
    | some (.fault info, s') => ofExcept (raiseFailure (.transport info) s')
    | _ => .refused .notSelected)

/-- RD.FAULT in S_RX (R115): the channel answers `fault(info)` to SerRx; raise TransportFault(info). -/
def execRdFaultRx (s : State) : Result :=
  guarded .rdFaultRx s
    (match takeRx s with
    | some (.fault info, s') => ofExcept (raiseFailure (.transport info) s')
    | _ => .refused .notSelected)

/-- RD.CHKOK (R116): decode RESP, publish the reading, `PPM_VALID <- 1; RES <- 1; SEQ <- S_COLLECT`. -/
def execRdChkok (s : State) : Result :=
  guarded .rdChkok s
    (match (resp s).bind decodeReading with
    | some v => .next ((((metricSet .co2Ppm v.toNat s).setPpmValid).setRes true).setSeq sCollect)
    | none => .fault .decodeUnvalidated)

/-- RD.CHKFAIL (R117): raise the failure CLASSIFY(RESP) names (R176). -/
def execRdChkfail (s : State) : Result :=
  guarded .rdChkfail s
    (match (respVerdict s).bind failureOf with
    | some f => ofExcept (raiseFailure f s)
    | none => .refused .notSelected)

end Sys2Proof.Machine
end

