-- ==== Sys2Proof/Machine/Dispatch.lean ====
section
/-! DEFINITION. The dispatch: one arm for each constructor of Instr, each one call of its meaning. -/

namespace Sys2Proof.Machine

def exec (i : Instr) (s : State) : Host.Outcome State Fault Refusal :=
  match i with
  | .buildreq => Sys2Proof.Machine.execBuildreq s
  | .decode4 ppmh cs => Sys2Proof.Machine.execDecode4 ppmh cs s
  | .decode5 ppmh ppml cs => Sys2Proof.Machine.execDecode5 ppmh ppml cs s
  | .decode6 ppmh ppml p4 cs => Sys2Proof.Machine.execDecode6 ppmh ppml p4 cs s
  | .decode7 ppmh ppml p4 p5 cs => Sys2Proof.Machine.execDecode7 ppmh ppml p4 p5 cs s
  | .decode8 ppmh ppml p4 p5 p6 cs => Sys2Proof.Machine.execDecode8 ppmh ppml p4 p5 p6 cs s
  | .decode9 ppmh ppml p4 p5 p6 p7 cs => Sys2Proof.Machine.execDecode9 ppmh ppml p4 p5 p6 p7 cs s
  | .chksum resp => Sys2Proof.Machine.execChksum resp s
  | .classify resp => Sys2Proof.Machine.execClassify resp s
  | .validate resp => Sys2Proof.Machine.execValidate resp s
  | .plStart => Sys2Proof.Machine.execPlStart s
  | .plWait => Sys2Proof.Machine.execPlWait s
  | .plIter => Sys2Proof.Machine.execPlIter s
  | .rdBegin => Sys2Proof.Machine.execRdBegin s
  | .plCallx => Sys2Proof.Machine.execPlCallx s
  | .rdTxb => Sys2Proof.Machine.execRdTxb s
  | .rdFaultTx => Sys2Proof.Machine.execRdFaultTx s
  | .rdRxb => Sys2Proof.Machine.execRdRxb s
  | .rdRxend => Sys2Proof.Machine.execRdRxend s
  | .rdFaultRx => Sys2Proof.Machine.execRdFaultRx s
  | .rdChkok => Sys2Proof.Machine.execRdChkok s
  | .rdChkfail => Sys2Proof.Machine.execRdChkfail s
  | .plCollect => Sys2Proof.Machine.execPlCollect s
  | .plTally => Sys2Proof.Machine.execPlTally s
  | .plHalt => Sys2Proof.Machine.execPlHalt s
  | .reset => Sys2Proof.Machine.execReset s
  | .serTx b => Sys2Proof.Machine.execSerTx b s
  | .serRx => Sys2Proof.Machine.execSerRx s
  | .metricInc m => Sys2Proof.Machine.execMetricInc m s
  | .metricSet m v => Sys2Proof.Machine.execMetricSet m v s
  | .log e => Sys2Proof.Machine.execLog e s
  | .now => Sys2Proof.Machine.execNow s
  | .intervalWait => Sys2Proof.Machine.execIntervalWait s
  | .extRefresh k => Sys2Proof.Machine.execExtRefresh k s
  | .report n => Sys2Proof.Machine.execReport n s
  | .emit e => Sys2Proof.Machine.execEmit e s

end Sys2Proof.Machine
end

