-- ==== Sys2Proof/Machine/Step.lean ====
section
/-! DEFINITION. One step of the machine. -/

namespace Sys2Proof.Machine

/-- One step: reset, if the host asserts it, its one input (R161, R200, log 9); else, under legal parameters (R182), the
operation the sequencer selects (R81), or nothing while the block is held (R214, log 7). -/
def step (s : State) : Host.Outcome State Fault Refusal :=
  if s.resetReq then exec .reset s
  else if s.params.legal then
    match choose s with
    | .run i => exec i s
    | .held => .next s
    | .badSeq => .refused (.badSeq s.seq)
    | .illegal => .refused .illegalState
  else .refused .badConfiguration

/-- The state in which the next step runs the instruction with the table bits `w` (log 19). -/
def State.withFetchWord (s : State) (nbits w : Nat) : State := placeWord nbits w s

end Sys2Proof.Machine
end

