-- ==== Sys2Proof/Safety.lean ====
section
/-! DEFINITION. What a good state is, in the terms claims use: the invariants of 10_state.md R40, strengthened so that every
step keeps them, and the measure of 41_reader.md R119. -/

namespace Sys2Proof.Machine

/-- 1 while the iteration in progress still owes its carbon read, else 0: the carbon reader is refreshed once an
iteration, at its place in READERS (R40 e, R120). -/
def carbonDue (s : State) : Nat :=
  if s.seq = sCall ∧ s.sidx ≤ s.params.carbonIndex then 1
  else if s.seq = sCollect ∧ s.sidx < s.params.carbonIndex then 1
  else 0

/-- The states between RD.BEGIN and the operation that ends the refresh (R118). -/
def inRefresh (s : State) : Bool := s.seq = sTx || s.seq = sRx || s.seq = sCheck

/-- A good state. R40 (a) to (g) under legal parameters, with what makes them inductive: where SIDX stands, what READS
owes, the widths of the registers, and that a stopped block's last event is its report (R204). -/
structure Inv (s : State) : Prop where
  /-- Legal parameters (R203 a, R205 b). -/
  params : s.params.legal = true
  /-- R40 (g). -/
  seqLegal : s.seq ≤ sStopped
  /-- R40 (a). -/
  rxlen : s.rxlen ≤ 9#4
  /-- R40 (a). -/
  txi : s.txi ≤ 9#4
  /-- "State S_TX with TXI = 9 is never reached" (R81). -/
  txRoom : s.seq = sTx → s.txi < 9#4
  /-- SIDX is an index of READERS while one is being refreshed or collected (R27). -/
  sidxCall : s.seq = sCall ∨ s.seq = sCollect → s.sidx < s.params.nReaders
  /-- The reader whose bytes are transferred is the carbon reader (R111). -/
  sidxRefresh : inRefresh s = true → s.sidx = s.params.carbonIndex
  /-- R40 (b). -/
  failMax : s.failcnt ≤ s.params.maxFails
  /-- R40 (b): at the threshold exactly when stopped. -/
  failStop : s.failcnt = s.params.maxFails ↔ s.seq = sStopped
  /-- R40 (c). -/
  failIter : s.failcnt ≤ s.iter
  /-- The iteration in progress is counted in ITER and not yet in FAILCNT. -/
  failRunning : sIter < s.seq → s.seq < sStopped → s.failcnt < s.iter
  /-- R40 (d), (e): one carbon read an iteration. -/
  readsIter : s.reads + carbonDue s = s.iter
  /-- R40 (d). -/
  errsReads : s.readErrs ≤ s.reads
  /-- A refresh under way has been counted and has not failed. -/
  errsRefresh : inRefresh s = true → s.readErrs < s.reads
  /-- R40 (f). -/
  ppmUnset : s.ppmValid = false → s.ppm = 0
  /-- ITER has ITER_W bits (R31). -/
  iterWidth : s.iter < 2 ^ s.params.iterW
  /-- READS has CNT_W bits (R36). -/
  readsWidth : s.reads < 2 ^ s.params.cntW
  /-- UPTIME has TIME_W bits (R34). -/
  uptimeWidth : s.uptime < 2 ^ s.params.timeW
  /-- START_TIME has TIME_W bits once PL.START has written it (R33). -/
  startWidth : s.seq ≠ sStarting → s.startTime < 2 ^ s.params.timeW
  /-- A stopped block's last event is `REPORT(ITER)` (R204 a). -/
  stopReport : s.seq = sStopped → s.out.getLast? = some (.report s.iter)

/-- Two states that agree on everything an operation may read: they differ at most in the elements that hold "no value" at
that moment (10_state.md R42, U6): START_TIME before PL.START has written it, ALLOK before PL.ITER has, RES unless a refresh
has just ended, and the bytes of RXB from RXLEN on. -/
structure SameWritten (s t : State) : Prop where
  /-- All the elements that always hold a value, and the model's own fields, are equal. -/
  rest : t = { s with startTime := t.startTime, allok := t.allok, res := t.res, rxb := t.rxb }
  /-- START_TIME is written by PL.START (R33). -/
  startTime : s.seq ≠ sStarting → t.startTime = s.startTime
  /-- ALLOK is written by PL.ITER (R28). -/
  allok : sIter < s.seq → t.allok = s.allok
  /-- RES is written by the operation that ends a refresh (R29). -/
  res : s.seq = sCollect → t.res = s.res
  /-- "RXB[i] has a value only for i < RXLEN" (R41). -/
  rxb : ∀ i, i < s.rxlen.toNat → t.rxb[i]? = s.rxb[i]?

/-- An upper bound on the operations a refresh still has before it (R119). -/
def refreshLeft (s : State) : Nat :=
  if s.seq = sTx then (9 - s.txi.toNat) + 11
  else if s.seq = sRx then (9 - s.rxlen.toNat) + 2
  else if s.seq = sCheck then 1
  else 0

/-- The source's sum over `resp[1:-1]`, unbounded: the bytes with indices 1 to n-2 (R9, R97 a). -/
def innerSum (r : Frame) : Nat := ((r.drop 1).dropLast.map BitVec.toNat).sum

/-- The source's `resp[-1]`, as a number (R9). -/
def trailerNat (r : Frame) : Nat := (r.getLastD 0).toNat

/-- The codec's instructions, which the state never selects (R82). -/
def isCodec : Instr → Bool
  | .buildreq | .decode4 _ _ | .decode5 _ _ _ | .decode6 _ _ _ _ | .decode7 _ _ _ _ _ => true
  | .decode8 _ _ _ _ _ _ | .decode9 _ _ _ _ _ _ _ | .chksum _ | .classify _ | .validate _ => true
  | .plStart | .plWait | .plIter | .plCallx | .plCollect | .plTally | .plHalt => false
  | .rdBegin | .rdTxb | .rdFaultTx | .rdRxb | .rdRxend | .rdFaultRx | .rdChkok | .rdChkfail => false
  | .reset | .serTx _ | .serRx | .metricInc _ | .metricSet _ _ | .log _ | .now | .intervalWait => false
  | .extRefresh _ | .report _ | .emit _ => false

/-- The instructions with a rule that appends an event to OUT (R44, R160). -/
def appends : Instr → Bool
  | .plStart | .plIter | .plTally => true
  | .rdBegin | .rdTxb | .rdFaultTx | .rdFaultRx | .rdChkok | .rdChkfail => true
  | .serTx _ | .metricInc _ | .metricSet _ _ | .log _ | .report _ | .emit _ => true
  | .buildreq | .decode4 _ _ | .decode5 _ _ _ | .decode6 _ _ _ _ | .decode7 _ _ _ _ _ => false
  | .decode8 _ _ _ _ _ _ | .decode9 _ _ _ _ _ _ _ | .chksum _ | .classify _ | .validate _ => false
  | .plWait | .plCallx | .plCollect | .plHalt | .rdRxb | .rdRxend => false
  | .reset | .serRx | .now | .intervalWait | .extRefresh _ => false

/-- One finished iteration, seen from PL.TALLY: its outcome `o` stands in ALLOK (R86, R136). -/
def tallyOutcome (s : State) (o : Bool) : State :=
  match exec .plTally { s with seq := sTally, allok := o } with
  | .next t => t
  | _ => s

/-- The length of the longest suffix of failed iterations (42_pollloop.md R139). -/
def failSuffix (os : List Bool) : Nat := (os.reverse.takeWhile (! ·)).length

/-- The edges of the transition graph of SEQ (42_pollloop.md R138). -/
def seqEdges : List (SeqCode × SeqCode) :=
  [(sStarting, sWait), (sWait, sIter), (sIter, sCall), (sCall, sTx), (sCall, sCollect), (sTx, sTx), (sTx, sRx),
    (sTx, sCollect), (sRx, sRx), (sRx, sCheck), (sRx, sCollect), (sCheck, sCollect), (sCollect, sCall),
    (sCollect, sTally), (sTally, sWait), (sTally, sStopped)]

end Sys2Proof.Machine
end

