-- ==== Sys2Proof/Certificates/Slice0/Obligations.lean ====
section
/-! DEFINITION. The statements for the provers, from the numbered rules of spec/. A statement about an operation of the
sequencer that gives its next state as an equation says at once that it completes, what it does, and (every field not named
being unchanged) its frame. "The model's" marks what rests on an entry of the assumption log. -/

open Sys2Proof Sys2Proof.Machine

/-! ## Encoding -/

/-- Words written out from the table: the request and two responses as numbers with byte 0 most significant (R8, R71, R73),
and the codes of SEQ (R25). That a shared code answers the first row of the table is the model's (log 19). -/
def Obligations.TableWordsDecode : Prop :=
  decodeTableWord 72 0xFF0186000000000079 = some .buildreq ∧
  decodeTableWord 32 0xFF86007A = some (.decode4 0x00 0x7A) ∧
  decodeTableWord 40 0xFF860190E9 = some (.decode5 0x01 0x90 0xE9) ∧
  decodeTableWord 72 0xFF8603E8000000008F = some (.decode9 0x03 0xE8 0x00 0x00 0x00 0x00 0x8F) ∧
  decodeTableWord 8 0x00 = some .plStart ∧
  decodeTableWord 8 0x04 = some .rdTxb ∧
  decodeTableWord 8 0x09 = some .plHalt ∧
  decodeTableWord 8 0x0A = none

/-- Every instruction with a wire frame, at every value of its operands, is read back from its frame. -/
def Obligations.FrameRoundTrip : Prop :=
  ∀ (i : Instr) (f : Frame), encode i = .frame f → decodeFrame f = .ok i

/-- A frame that decodes is the frame of what it decodes to: no two frames have one meaning, and none is dropped. -/
def Obligations.DecodedFrameEncodes : Prop :=
  ∀ (f : Frame) (i : Instr), decodeFrame f = .ok i → encode i = .frame f

/-- The rows a code of SEQ selects are exactly the operations with that code (R80, R81). -/
def Obligations.SeqCodeSelectsItsRows : Prop :=
  ∀ (i : Instr) (c : SeqCode), i ∈ decodeSeq c ↔ encode i = .seq c

/-- Every byte sequence that is none of the seven forms is rejected, by name: too short, or with a wrong header (30_encoding.md
sections 1 and 3), or of more than 9 bytes. That the last is rejected as long, whatever its header, is the model's (log 16). -/
def Obligations.OtherFramesRejected : Prop :=
  ∀ f : Frame, f ≠ [0xFF, 0x01, 0x86, 0x00, 0x00, 0x00, 0x00, 0x00, 0x79] →
    (f.length < 4 → decodeFrame f = .error .short) ∧
    (4 ≤ f.length ∧ f.length ≤ 9 ∧ (f[0]? ≠ some 0xFF ∨ f[1]? ≠ some 0x86) → decodeFrame f = .error .badHdr) ∧
    (9 < f.length → decodeFrame f = .error .long)

/-! ## Codec -/

/-- BUILDREQ returns the constant request and writes no state, in every state (R90). -/
def Obligations.BuildreqReturnsTheConstantRequest : Prop :=
  ∀ s : State, exec .buildreq s =
    .next { s with ret := .frame [0xFF, 0x01, 0x86, 0x00, 0x00, 0x00, 0x00, 0x00, 0x79] }

/-- CHKSUM returns the sum of the bytes 1 to n-2 modulo 256 and the last byte, for every sequence of two bytes or more
(R92). -/
def Obligations.ChksumReturnsSumAndTrailer : Prop :=
  ∀ (s : State) (r : Frame), 2 ≤ r.length →
    exec (.chksum r) s = .next { s with ret := .sums (BitVec.ofNat 8 (innerSum r % 256)) (r.getLastD 0) }

/-- CHKSUM of fewer than two bytes stops under a name of its own. The model's (log 17): the spec says only that the
function is not defined there. -/
def Obligations.ChksumOfTooFewBytesStops : Prop :=
  ∀ (s : State) (r : Frame), r.length < 2 → exec (.chksum r) s = .fault .checksumUndefined

/-- CLASSIFY, the tests in the order of R93, with the sum taken without bound. -/
def Obligations.ClassifyTestsInOrder : Prop :=
  ∀ (s : State) (r : Frame),
    exec (.classify r) s = .next { s with
      ret := .verdict (
        if r.length < 4 then .short
        else if r[0]? ≠ some 0xFF ∨ r[1]? ≠ some 0x86 then .badHdr
        else if (innerSum r % 256 + trailerNat r) % 256 ≠ 0 then
          .badSum (BitVec.ofNat 8 (innerSum r % 256)) (r.getLastD 0)
        else .ok) }

/-- VALIDATE returns true exactly on the sequences of four bytes or more with the header FF 86 and the checksum condition
(R94). -/
def Obligations.ValidateAcceptsExactlyTheValidFrames : Prop :=
  ∀ (s : State) (r : Frame), ∃ b : Bool,
    exec (.validate r) s = .next { s with ret := .valid b } ∧
    (b = true ↔ 4 ≤ r.length ∧ r[0]? = some 0xFF ∧ r[1]? = some 0x86 ∧ (innerSum r % 256 + trailerNat r) % 256 = 0)

/-- For every header-correct prefix there is exactly one valid trailer, the two's complement of the sum (40_codec.md, the
arithmetic laws; 95_test_vectors.md Q1). -/
def Obligations.ExactlyOneTrailerIsValid : Prop :=
  ∀ (body : Frame) (t : Byte), 1 ≤ body.length →
    (validateFrame (0xFF :: 0x86 :: body ++ [t]) = true ↔
      t = BitVec.ofNat 8 ((256 - (0x86 + (body.map BitVec.toNat).sum) % 256) % 256))

/-- DECODE of a valid sequence, of any length as a function and in each of its six forms as an instruction, returns
`resp[2] * 256 + resp[3]` (R96). -/
def Obligations.DecodeReturnsTheReading : Prop :=
  (∀ r : Frame, validateFrame r = true →
    decodeReading r = some (BitVec.ofNat 16 ((r.getD 2 0).toNat * 256 + (r.getD 3 0).toNat))) ∧
  ∀ (s : State) (h l a b c d cs : Byte),
    (validateFrame [0xFF, 0x86, h, cs] = true →
      exec (.decode4 h cs) s = .next { s with ret := .reading (BitVec.ofNat 16 (h.toNat * 256 + cs.toNat)) }) ∧
    (validateFrame [0xFF, 0x86, h, l, cs] = true →
      exec (.decode5 h l cs) s = .next { s with ret := .reading (BitVec.ofNat 16 (h.toNat * 256 + l.toNat)) }) ∧
    (validateFrame [0xFF, 0x86, h, l, a, cs] = true →
      exec (.decode6 h l a cs) s = .next { s with ret := .reading (BitVec.ofNat 16 (h.toNat * 256 + l.toNat)) }) ∧
    (validateFrame [0xFF, 0x86, h, l, a, b, cs] = true →
      exec (.decode7 h l a b cs) s = .next { s with ret := .reading (BitVec.ofNat 16 (h.toNat * 256 + l.toNat)) }) ∧
    (validateFrame [0xFF, 0x86, h, l, a, b, c, cs] = true →
      exec (.decode8 h l a b c cs) s = .next { s with ret := .reading (BitVec.ofNat 16 (h.toNat * 256 + l.toNat)) }) ∧
    (validateFrame [0xFF, 0x86, h, l, a, b, c, d, cs] = true →
      exec (.decode9 h l a b c d cs) s = .next { s with ret := .reading (BitVec.ofNat 16 (h.toNat * 256 + l.toNat)) })

/-- DECODE of a frame that does not validate is the model-level fault DecodeUnvalidated (R182, log 17). -/
def Obligations.DecodeOfAnInvalidFrameFaults : Prop :=
  ∀ (s : State) (h l a b c d cs : Byte),
    (validateFrame [0xFF, 0x86, h, cs] = false → exec (.decode4 h cs) s = .fault .decodeUnvalidated) ∧
    (validateFrame [0xFF, 0x86, h, l, cs] = false → exec (.decode5 h l cs) s = .fault .decodeUnvalidated) ∧
    (validateFrame [0xFF, 0x86, h, l, a, cs] = false → exec (.decode6 h l a cs) s = .fault .decodeUnvalidated) ∧
    (validateFrame [0xFF, 0x86, h, l, a, b, cs] = false → exec (.decode7 h l a b cs) s = .fault .decodeUnvalidated) ∧
    (validateFrame [0xFF, 0x86, h, l, a, b, c, cs] = false → exec (.decode8 h l a b c cs) s = .fault .decodeUnvalidated) ∧
    (validateFrame [0xFF, 0x86, h, l, a, b, c, d, cs] = false →
      exec (.decode9 h l a b c d cs) s = .fault .decodeUnvalidated)

/-- A valid 4-byte frame carries 8 bits of information: its reading is forced by its byte 2 (R211, C5). -/
def Obligations.FourByteReadingIsForced : Prop :=
  ∀ (s t : State) (h cs : Byte), exec (.decode4 h cs) s = .next t →
    t.ret = .reading (BitVec.ofNat 16 (256 * h.toNat + (256 - (0x86 + h.toNat) % 256) % 256))

/-! ## Poll loop -/

/-- PL.START captures the time, announces STARTED and goes to S_WAIT (42_pollloop.md section 2). The answer of Now() stands in
env.now, or is the free value of Config (the model's: logs 5, 6). -/
def Obligations.StartCapturesTheTime : Prop :=
  ∀ s : State, s.seq = sStarting →
    (∀ t rest, s.env.now = t :: rest →
      exec .plStart s = .next { s with
        startTime := t % 2 ^ s.params.timeW, out := s.out ++ [.started], seq := sWait
        env := { s.env with now := rest } }) ∧
    (s.env.now = [] →
      exec .plStart s = .next { s with
        startTime := Config.nowAnswer s.draws % 2 ^ s.params.timeW, out := s.out ++ [.started], seq := sWait
        draws := s.draws + 1 })

/-- PL.WAIT goes to S_ITER: at once in the first iteration, later when the interval port has reported (42_pollloop.md
section 2; the report stands in env.ticks, the model's log 5). -/
def Obligations.WaitEndsWithTheInterval : Prop :=
  ∀ s : State, s.seq = sWait →
    (s.iter = 0 → exec .plWait s = .next { s with seq := sIter }) ∧
    (∀ n, s.iter ≠ 0 → s.env.ticks = n + 1 →
      exec .plWait s = .next { s with seq := sIter, env := { s.env with ticks := n } })

/-- PL.ITER counts the iteration, publishes the uptime modulo 2^TIME_W, sets ALLOK, clears SIDX and goes to S_CALL
(42_pollloop.md section 2; the answer of Now() as for PL.START). -/
def Obligations.IterCountsAndPublishesTheUptime : Prop :=
  ∀ s : State, s.seq = sIter → s.iter + 1 < 2 ^ s.params.iterW →
    (∀ t rest, s.env.now = t :: rest →
      exec .plIter s = .next { s with
        iter := s.iter + 1
        uptime := (2 ^ s.params.timeW - s.startTime % 2 ^ s.params.timeW + t) % 2 ^ s.params.timeW
        out := s.out ++ [.set .uptime
          ((2 ^ s.params.timeW - s.startTime % 2 ^ s.params.timeW + t) % 2 ^ s.params.timeW)]
        allok := true, sidx := 0, seq := sCall, env := { s.env with now := rest } }) ∧
    (s.env.now = [] →
      exec .plIter s = .next { s with
        iter := s.iter + 1
        uptime := (2 ^ s.params.timeW - s.startTime % 2 ^ s.params.timeW + Config.nowAnswer s.draws) % 2 ^ s.params.timeW
        out := s.out ++ [.set .uptime
          ((2 ^ s.params.timeW - s.startTime % 2 ^ s.params.timeW + Config.nowAnswer s.draws) % 2 ^ s.params.timeW)]
        allok := true, sidx := 0, seq := sCall, draws := s.draws + 1 })

/-- PL.CALLX takes the external reader's result into RES and goes to S_COLLECT (42_pollloop.md section 2; the answer stands
in env.ext, the model's log 5). -/
def Obligations.CallxTakesTheResult : Prop :=
  ∀ (s : State) (k : Nat) (r : Bool) (rest : List Bool),
    s.seq = sCall → s.params.readers[s.sidx]? = some (.ext k) → s.env.ext = r :: rest →
      exec .plCallx s = .next { s with res := r, seq := sCollect, env := { s.env with ext := rest } }

/-- PL.COLLECT (R135). -/
def Obligations.CollectRecordsTheResult : Prop :=
  ∀ s : State, s.seq = sCollect →
    exec .plCollect s = .next { s with
      allok := s.allok && s.res, sidx := s.sidx + 1
      seq := if s.sidx + 1 = s.params.readers.length then sTally else sCall }

/-- PL.TALLY (R136): success clears the counter, failure adds one, and reaching the threshold reports and stops. -/
def Obligations.TallyCountsAndStops : Prop :=
  ∀ s : State, s.seq = sTally → 1 ≤ s.params.maxFails →
    (s.allok = true → exec .plTally s = .next { s with failcnt := 0, seq := sWait }) ∧
    (s.allok = false → s.failcnt + 1 ≠ s.params.maxFails →
      exec .plTally s = .next { s with failcnt := s.failcnt + 1, seq := sWait }) ∧
    (s.allok = false → s.failcnt + 1 = s.params.maxFails →
      exec .plTally s = .next { s with
        failcnt := s.failcnt + 1, out := s.out ++ [.report s.iter], seq := sStopped })

/-- PL.HALT: nothing changes, and a stopped block stays as it is (42_pollloop.md section 2, R137). That "no step" is a step
to the same state is the model's (log 8). -/
def Obligations.StoppedIsTerminal : Prop :=
  ∀ s : State, s.seq = sStopped →
    exec .plHalt s = .next s ∧ (s.resetReq = false → s.params.legal = true → step s = .next s)

/-! ## Reader -/

/-- RD.BEGIN (41_reader.md section 2): the attempt is counted first, and the indices cleared (clearing them here is the spec's
own choice, D6). -/
def Obligations.BeginCountsTheAttempt : Prop :=
  ∀ s : State, s.seq = sCall → s.params.readers[s.sidx]? = some .carbon → s.reads + 1 < 2 ^ s.params.cntW →
    exec .rdBegin s = .next { s with
      reads := s.reads + 1, out := s.out ++ [.inc .reads], txi := 0, rxlen := 0, seq := sTx }

/-- RD.TXB (41_reader.md section 2): the request's byte at TXI goes out; the ninth acceptance moves to S_RX. The channel's
answer stands in env.tx (the model's log 5). -/
def Obligations.TxbSendsTheNextRequestByte : Prop :=
  ∀ (s : State) (rest : List TxAnswer), s.seq = sTx → s.txi < 9#4 → s.env.tx = .accepted :: rest →
    exec .rdTxb s = .next { s with
      out := s.out ++ [.tx
        (([0xFF, 0x01, 0x86, 0x00, 0x00, 0x00, 0x00, 0x00, 0x79] : List Byte).getD s.txi.toNat 0)]
      txi := s.txi + 1, seq := if s.txi = 8#4 then sRx else sTx, env := { s.env with tx := rest } }

/-- RD.RXB (41_reader.md section 2): the byte is stored at RXLEN, no other byte of the buffer changes, RXLEN goes up by one,
and nothing else changes but the answer taken from env.rx (the model's log 5). -/
def Obligations.RxbStoresTheByteAtRxlen : Prop :=
  ∀ (s : State) (b : Byte) (rest : List RxAnswer), s.seq = sRx → s.rxlen < 9#4 → s.env.rx = .byte b :: rest →
    ∃ t : State, exec .rdRxb s = .next t ∧
      t = { s with rxb := t.rxb, rxlen := s.rxlen + 1, env := { s.env with rx := rest } } ∧
      t.rxb[s.rxlen.toNat]? = some b ∧ ∀ a, a ≠ s.rxlen.toNat → t.rxb[a]? = s.rxb[a]?

/-- RD.RXEND (41_reader.md section 2): after nine bytes without asking the channel, below nine on its timeout. -/
def Obligations.RxendEndsTheCollection : Prop :=
  ∀ s : State, s.seq = sRx →
    (s.rxlen = 9#4 → exec .rdRxend s = .next { s with seq := sCheck }) ∧
    (∀ rest, s.rxlen < 9#4 → s.env.rx = .timeout :: rest →
      exec .rdRxend s = .next { s with seq := sCheck, env := { s.env with rx := rest } })

/-- RD.FAULT in both its rows (41_reader.md section 2): the error is counted, the fault logged, RES cleared. -/
def Obligations.TransportFaultFailsTheRefresh : Prop :=
  ∀ (s : State) (info : FaultInfo), s.readErrs + 1 < 2 ^ s.params.cntW →
    (∀ rest, s.seq = sTx → s.txi < 9#4 → s.env.tx = .fault info :: rest →
      exec .rdFaultTx s = .next { s with
        readErrs := s.readErrs + 1, out := s.out ++ [.inc .readErrs, .log (.transportFault info)], res := false
        seq := sCollect, env := { s.env with tx := rest } }) ∧
    (∀ rest, s.seq = sRx → s.rxlen < 9#4 → s.env.rx = .fault info :: rest →
      exec .rdFaultRx s = .next { s with
        readErrs := s.readErrs + 1, out := s.out ++ [.inc .readErrs, .log (.transportFault info)], res := false
        seq := sCollect, env := { s.env with rx := rest } })

/-- RD.CHKOK (R116): a valid response is decoded and published, and the refresh has succeeded. -/
def Obligations.ChkokPublishesTheReading : Prop :=
  ∀ s : State, s.seq = sCheck → s.rxlen ≤ 9#4 → classifyFrame (s.rxb.toList.take s.rxlen.toNat) = .ok →
    exec .rdChkok s = .next { s with
      ppm := BitVec.ofNat 16 (s.rxb[2].toNat * 256 + s.rxb[3].toNat)
      out := s.out ++ [.set .co2Ppm (s.rxb[2].toNat * 256 + s.rxb[3].toNat)]
      ppmValid := true, res := true, seq := sCollect }

/-- RD.CHKFAIL (41_reader.md section 2): one error is counted, the checksum diagnostic comes first and only for BADSUM, and
PPM is left alone. The content and place of the second diagnostic are the spec's own choice, D21 and D29. -/
def Obligations.ChkfailCountsAndLogs : Prop :=
  ∀ s : State, s.seq = sCheck → s.rxlen ≤ 9#4 → s.readErrs + 1 < 2 ^ s.params.cntW →
    (classifyFrame (s.rxb.toList.take s.rxlen.toNat) = .short →
      exec .rdChkfail s = .next { s with
        readErrs := s.readErrs + 1, out := s.out ++ [.inc .readErrs, .log (.readInvalid .short s.rxlen)]
        res := false, seq := sCollect }) ∧
    (classifyFrame (s.rxb.toList.take s.rxlen.toNat) = .badHdr →
      exec .rdChkfail s = .next { s with
        readErrs := s.readErrs + 1, out := s.out ++ [.inc .readErrs, .log (.readInvalid .badHdr s.rxlen)]
        res := false, seq := sCollect }) ∧
    (∀ a b, classifyFrame (s.rxb.toList.take s.rxlen.toNat) = .badSum a b →
      exec .rdChkfail s = .next { s with
        readErrs := s.readErrs + 1
        out := s.out ++ [.log (.chksumMismatch a b), .inc .readErrs, .log (.readInvalid .badSum s.rxlen)]
        res := false, seq := sCollect })

/-- The counters at the top of their ranges (60_exceptions.md section 6): no wrap and no saturation, but CounterOverflow, the
spec's own choice D13 (log 18); for PL.ITER, RD.BEGIN, RD.FAULT and RD.CHKFAIL. -/
def Obligations.CountersAtTheTopFault : Prop :=
  ∀ s : State,
    (s.seq = sIter → s.iter = 2 ^ s.params.iterW - 1 → exec .plIter s = .fault (.counterOverflow .iter)) ∧
    (s.seq = sCall → s.params.readers[s.sidx]? = some .carbon → s.reads = 2 ^ s.params.cntW - 1 →
      exec .rdBegin s = .fault (.counterOverflow .reads)) ∧
    (∀ info rest, s.seq = sTx → s.txi < 9#4 → s.env.tx = .fault info :: rest → s.readErrs = 2 ^ s.params.cntW - 1 →
      exec .rdFaultTx s = .fault (.counterOverflow .readErrs)) ∧
    (∀ info rest, s.seq = sRx → s.rxlen < 9#4 → s.env.rx = .fault info :: rest → s.readErrs = 2 ^ s.params.cntW - 1 →
      exec .rdFaultRx s = .fault (.counterOverflow .readErrs)) ∧
    (s.seq = sCheck → s.rxlen ≤ 9#4 → classifyFrame (s.rxb.toList.take s.rxlen.toNat) ≠ .ok →
      s.readErrs = 2 ^ s.params.cntW - 1 → exec .rdChkfail s = .fault (.counterOverflow .readErrs))

/-- Called where its selection or guard is false, an operation of the sequencer does not execute. The model's (log 13): it
is refused. -/
def Obligations.UnselectedOperationIsRefused : Prop :=
  ∀ (i : Instr) (s : State) (c : SeqCode), encode i = .seq c → enabled i s = false → exec i s = .refused .notSelected

/-! ## Ports and reset -/

/-- MetricInc (43_ports.md section 2): the register plus 1 and the event, or, by the spec's own choice D13 (log 18),
CounterOverflow at the top of the range. -/
def Obligations.MetricIncAddsOneOrFaults : Prop :=
  ∀ s : State,
    (s.reads + 1 < 2 ^ s.params.cntW →
      exec (.metricInc .reads) s = .next { s with reads := s.reads + 1, out := s.out ++ [.inc .reads] }) ∧
    (s.readErrs + 1 < 2 ^ s.params.cntW →
      exec (.metricInc .readErrs) s = .next { s with readErrs := s.readErrs + 1, out := s.out ++ [.inc .readErrs] }) ∧
    (s.reads = 2 ^ s.params.cntW - 1 → exec (.metricInc .reads) s = .fault (.counterOverflow .reads)) ∧
    (s.readErrs = 2 ^ s.params.cntW - 1 → exec (.metricInc .readErrs) s = .fault (.counterOverflow .readErrs))

/-- MetricSet (43_ports.md section 2): the gauge is overwritten with v, a value of its width (the width is the spec's own
choice, D25), and the event appended. -/
def Obligations.MetricSetOverwritesTheGauge : Prop :=
  ∀ (s : State) (v : Nat),
    (v < 2 ^ s.params.timeW →
      exec (.metricSet .uptime v) s = .next { s with uptime := v, out := s.out ++ [.set .uptime v] }) ∧
    (v < 2 ^ 16 →
      ∃ t : State, exec (.metricSet .co2Ppm v) s = .next t ∧ t.ppm.toNat = v ∧
        t = { s with ppm := t.ppm, out := s.out ++ [.set .co2Ppm v] })

/-- Log, Report and Emit append their event and change nothing else (43_ports.md sections 3 and 5). -/
def Obligations.LogReportEmitAppendOneEvent : Prop :=
  ∀ (s : State) (e : LogEntry) (n : Nat) (ev : Event),
    exec (.log e) s = .next { s with out := s.out ++ [.log e] } ∧
    exec (.report n) s = .next { s with out := s.out ++ [.report n] } ∧
    exec (.emit ev) s = .next { s with out := s.out ++ [ev] }

/-- SerTx and SerRx (43_ports.md section 1): an accepted byte is an event, a fault writes none, a received byte is no output.
The answer is returned in ret, and with none there the primitive is held (the model's: logs 5, 11, 12). -/
def Obligations.SerialPrimitivesTakeOneAnswer : Prop :=
  ∀ (s : State) (b : Byte),
    (∀ rest, s.env.tx = .accepted :: rest →
      exec (.serTx b) s = .next { s with
        out := s.out ++ [.tx b], ret := .tx .accepted, env := { s.env with tx := rest } }) ∧
    (∀ info rest, s.env.tx = .fault info :: rest →
      exec (.serTx b) s = .next { s with ret := .tx (.fault info), env := { s.env with tx := rest } }) ∧
    (∀ a rest, s.env.rx = a :: rest →
      exec .serRx s = .next { s with ret := .rx a, env := { s.env with rx := rest } }) ∧
    (s.env.tx = [] → exec (.serTx b) s = .next s) ∧
    (s.env.rx = [] → exec .serRx s = .next s)

/-- Now, IntervalWait and ExtRefresh (43_ports.md section 4): each takes its port's answer; Now always has one. The answer is
returned in ret (the model's: logs 5, 6, 11, 12). -/
def Obligations.TimePrimitivesTakeOneAnswer : Prop :=
  ∀ s : State,
    (∀ t rest, s.env.now = t :: rest →
      exec .now s = .next { s with ret := .time (t % 2 ^ s.params.timeW), env := { s.env with now := rest } }) ∧
    (s.env.now = [] →
      exec .now s = .next { s with
        ret := .time (Config.nowAnswer s.draws % 2 ^ s.params.timeW), draws := s.draws + 1 }) ∧
    (∀ n, s.env.ticks = n + 1 →
      exec .intervalWait s = .next { s with ret := .tick, env := { s.env with ticks := n } }) ∧
    (s.env.ticks = 0 → exec .intervalWait s = .next s) ∧
    (∀ k r rest, s.env.ext = r :: rest →
      exec (.extRefresh k) s = .next { s with ret := .ext r, env := { s.env with ext := rest } }) ∧
    (∀ k, s.env.ext = [] → exec (.extRefresh k) s = .next s)

/-- RESET, in every state (70_reset_and_hazards.md section 1, 10_state.md section 8): every element takes its reset value and
OUT becomes empty. The values of START_TIME, ALLOK, RES and RXB are the model's (log 1) and left out; that the parameters and
the ports' answers stay is log 9. -/
def Obligations.ResetRestoresEveryElement : Prop :=
  ∀ s : State, ∃ t : State, exec .reset s = .next t ∧
    t.seq = sStarting ∧ t.iter = 0 ∧ t.failcnt = 0 ∧ t.uptime = 0 ∧ t.ppm = 0 ∧ t.ppmValid = false ∧
    t.reads = 0 ∧ t.readErrs = 0 ∧ t.rxlen = 0 ∧ t.txi = 0 ∧ t.sidx = 0 ∧ t.out = [] ∧
    t.params = s.params ∧ t.env = s.env ∧ t.draws = s.draws ∧ t.ret = .none ∧ t.resetReq = false

/-- The state after reset is the one of the table of 10_state.md section 8, under the default parameters of R6. -/
def Obligations.ResetStateIsTheTable : Prop :=
  State.reset.seq = sStarting ∧ State.reset.iter = 0 ∧ State.reset.failcnt = 0 ∧ State.reset.uptime = 0 ∧
  State.reset.ppm = 0 ∧ State.reset.ppmValid = false ∧ State.reset.reads = 0 ∧ State.reset.readErrs = 0 ∧
  State.reset.rxlen = 0 ∧ State.reset.txi = 0 ∧ State.reset.sidx = 0 ∧ State.reset.out = [] ∧
  State.reset.params.maxFails = 10 ∧ State.reset.params.readers = [.carbon] ∧ State.reset.params.iterW = 32 ∧
  State.reset.params.cntW = 32 ∧ State.reset.params.failW = 4 ∧ State.reset.params.timeW = 32 ∧
  State.reset.params.pollIntervalMs = 1000

/-! ## The step -/

/-- A STEP RUNS THE DECODED INSTRUCTION: with SEQ at the code of an operation whose guard holds, under legal parameters and
with reset not asserted, the step is exec of that operation; and with reset asserted it is exec of RESET (that the field
resetReq stands for the host's reset input is the model's: log 9). -/
def Obligations.StepRunsTheSelectedOperation : Prop :=
  (∀ (i : Instr) (s : State), s.resetReq = false → s.params.legal = true → encode i = .seq s.seq → enabled i s = true →
    step s = exec i s) ∧
  (∀ s : State, s.resetReq = true → step s = exec .reset s)

/-- The selection table, row by row (30_encoding.md section 5): which operation the step runs, from SEQ, the state condition
and the port's answer. -/
def Obligations.SelectionTable : Prop :=
  ∀ s : State, s.resetReq = false → s.params.legal = true →
    (s.seq = sStarting → step s = exec .plStart s) ∧
    (s.seq = sWait → s.iter = 0 → step s = exec .plWait s) ∧
    (s.seq = sWait → s.iter ≠ 0 → s.env.ticks ≠ 0 → step s = exec .plWait s) ∧
    (s.seq = sIter → step s = exec .plIter s) ∧
    (s.seq = sCall → s.params.readers[s.sidx]? = some .carbon → step s = exec .rdBegin s) ∧
    (∀ k, s.seq = sCall → s.params.readers[s.sidx]? = some (.ext k) → s.env.ext ≠ [] → step s = exec .plCallx s) ∧
    (s.seq = sTx → s.txi < 9#4 → s.env.tx.head? = some .accepted → step s = exec .rdTxb s) ∧
    (∀ info, s.seq = sTx → s.txi < 9#4 → s.env.tx.head? = some (.fault info) → step s = exec .rdFaultTx s) ∧
    (∀ b, s.seq = sRx → s.rxlen < 9#4 → s.env.rx.head? = some (.byte b) → step s = exec .rdRxb s) ∧
    (s.seq = sRx → s.rxlen < 9#4 → s.env.rx.head? = some .timeout → step s = exec .rdRxend s) ∧
    (∀ info, s.seq = sRx → s.rxlen < 9#4 → s.env.rx.head? = some (.fault info) → step s = exec .rdFaultRx s) ∧
    (s.seq = sRx → s.rxlen = 9#4 → step s = exec .rdRxend s) ∧
    (s.seq = sCheck → s.rxlen ≤ 9#4 → classifyFrame (s.rxb.toList.take s.rxlen.toNat) = .ok →
      step s = exec .rdChkok s) ∧
    (s.seq = sCheck → s.rxlen ≤ 9#4 → classifyFrame (s.rxb.toList.take s.rxlen.toNat) ≠ .ok →
      step s = exec .rdChkfail s) ∧
    (s.seq = sCollect → step s = exec .plCollect s) ∧
    (s.seq = sTally → step s = exec .plTally s) ∧
    (s.seq = sStopped → step s = exec .plHalt s)

/-- At most one operation of the sequencer is enabled in any state (00_scope.md section 5: the block is deterministic given the
answers of the ports). -/
def Obligations.AtMostOneOperationEnabled : Prop :=
  ∀ (i j : Instr) (s : State), enabled i s = true → enabled j s = true → i = j

/-- The four holds (70_reset_and_hazards.md section 5): without the port's answer the block does not get past, and nothing
changes. That a hold is a step to the same state is the model's (log 7). -/
def Obligations.HeldUntilThePortAnswers : Prop :=
  ∀ s : State, s.resetReq = false → s.params.legal = true →
    (s.seq = sWait → s.iter ≠ 0 → s.env.ticks = 0 → step s = .next s) ∧
    (∀ k, s.seq = sCall → s.params.readers[s.sidx]? = some (.ext k) → s.env.ext = [] → step s = .next s) ∧
    (s.seq = sTx → s.txi < 9#4 → s.env.tx = [] → step s = .next s) ∧
    (s.seq = sRx → s.rxlen < 9#4 → s.env.rx = [] → step s = .next s)

/-- The refusals of the step (60_exceptions.md section 6): illegal parameters, a code 10 to 15 of SEQ, and the model's own, a
legal code with an index register outside its legal values (log 14). -/
def Obligations.StepRefusesWhatIsOutsideTheModel : Prop :=
  ∀ s : State, s.resetReq = false →
    (s.params.legal = false → step s = .refused .badConfiguration) ∧
    (s.params.legal = true → sStopped < s.seq → step s = .refused (.badSeq s.seq)) ∧
    (s.params.legal = true → s.seq = sCall → s.params.readers.length ≤ s.sidx → step s = .refused .illegalState) ∧
    (s.params.legal = true → s.seq = sTx → 9#4 ≤ s.txi → step s = .refused .illegalState) ∧
    (s.params.legal = true → s.seq = sRx → 9#4 < s.rxlen → step s = .refused .illegalState) ∧
    (s.params.legal = true → s.seq = sCheck → 9#4 < s.rxlen → step s = .refused .illegalState)

/-- Reset at any time (70_reset_and_hazards.md section 1): asserted in any state, a held one, a stopped one, one with a code
SEQ never has, under any parameters, the next step resets. The model's: the values START_TIME, ALLOK, RES and RXB then hold,
which the spec gives none (log 1), and that the parameters, the ports' answers and the draws stay (log 9). -/
def Obligations.ResetAtAnyTime : Prop :=
  ∀ s : State, s.resetReq = true →
    step s = .next { State.resetWith s.params with env := s.env, draws := s.draws }

/-- The first request byte is offered after exactly four operations from reset when READERS[0] = CARBON, whatever the
answers of the ports (70_reset_and_hazards.md section 1, R202), under any legal parameters whose counters can count at all. -/
def Obligations.FourOperationsBeforeTheFirstByte : Prop :=
  ∀ (p : Params) (e : Env), p.legal = true → p.readers[0]? = some .carbon → 1 ≤ p.iterW → 1 ≤ p.cntW →
    ∃ (t : State) (u : Nat), Host.Core.run core 4 { State.resetWith p with env := e } = .next t ∧
      t.seq = sTx ∧ t.txi = 0 ∧ t.rxlen = 0 ∧ t.iter = 1 ∧ t.reads = 1 ∧
      t.out = [.started, .set .uptime u, .inc .reads]

/-! ## Frames -/

/-- What the codec functions leave unchanged: everything but the returned value (40_codec.md R99). -/
def Obligations.CodecFrame : Prop :=
  ∀ (i : Instr) (s t : State), isCodec i = true → exec i s = .next t → t = { s with ret := t.ret }

/-- What the poll loop's operations leave unchanged: each changes only the fields named for it, so no byte of the receive
buffer, and no metric counter. -/
def Obligations.PollFrame : Prop :=
  ∀ s t : State,
    (exec .plStart s = .next t →
      t = { s with startTime := t.startTime, out := t.out, seq := t.seq, draws := t.draws
                   env := { s.env with now := t.env.now } }) ∧
    (exec .plWait s = .next t → t = { s with seq := t.seq, env := { s.env with ticks := t.env.ticks } }) ∧
    (exec .plIter s = .next t →
      t = { s with iter := t.iter, uptime := t.uptime, out := t.out, allok := t.allok, sidx := t.sidx, seq := t.seq
                   draws := t.draws, env := { s.env with now := t.env.now } }) ∧
    (exec .plCallx s = .next t → t = { s with res := t.res, seq := t.seq, env := { s.env with ext := t.env.ext } }) ∧
    (exec .plCollect s = .next t → t = { s with allok := t.allok, sidx := t.sidx, seq := t.seq }) ∧
    (exec .plTally s = .next t → t = { s with failcnt := t.failcnt, out := t.out, seq := t.seq }) ∧
    (exec .plHalt s = .next t → t = s)

/-- What the reader's operations leave unchanged. RD.RXB alone changes the receive buffer, and there only the byte at the
index its meaning stores to. -/
def Obligations.ReaderFrame : Prop :=
  ∀ s t : State,
    (exec .rdBegin s = .next t →
      t = { s with reads := t.reads, out := t.out, txi := t.txi, rxlen := t.rxlen, seq := t.seq }) ∧
    (exec .rdTxb s = .next t →
      t = { s with out := t.out, txi := t.txi, seq := t.seq, env := { s.env with tx := t.env.tx } }) ∧
    (exec .rdRxb s = .next t →
      t = { s with rxb := t.rxb, rxlen := t.rxlen, env := { s.env with rx := t.env.rx } } ∧
      ∀ a, a ≠ storeIndex s → t.rxb[a]? = s.rxb[a]?) ∧
    (exec .rdRxend s = .next t → t = { s with seq := t.seq, env := { s.env with rx := t.env.rx } }) ∧
    (exec .rdFaultTx s = .next t →
      t = { s with readErrs := t.readErrs, out := t.out, res := t.res, seq := t.seq
                   env := { s.env with tx := t.env.tx } }) ∧
    (exec .rdFaultRx s = .next t →
      t = { s with readErrs := t.readErrs, out := t.out, res := t.res, seq := t.seq
                   env := { s.env with rx := t.env.rx } }) ∧
    (exec .rdChkok s = .next t →
      t = { s with ppm := t.ppm, ppmValid := t.ppmValid, out := t.out, res := t.res, seq := t.seq }) ∧
    (exec .rdChkfail s = .next t →
      t = { s with readErrs := t.readErrs, out := t.out, res := t.res, seq := t.seq })

/-- What the port primitives leave unchanged when they run on their own. -/
def Obligations.PortFrame : Prop :=
  ∀ (s t : State) (b : Byte) (m : Counter) (g : Gauge) (v k n : Nat) (e : LogEntry) (ev : Event),
    (exec (.serTx b) s = .next t →
      t = { s with out := t.out, ret := t.ret, env := { s.env with tx := t.env.tx } }) ∧
    (exec .serRx s = .next t → t = { s with ret := t.ret, env := { s.env with rx := t.env.rx } }) ∧
    (exec (.metricInc m) s = .next t →
      t = { s with reads := t.reads, readErrs := t.readErrs, out := t.out } ∧
      (m = .reads → t.readErrs = s.readErrs) ∧ (m = .readErrs → t.reads = s.reads)) ∧
    (exec (.metricSet g v) s = .next t →
      t = { s with uptime := t.uptime, ppm := t.ppm, out := t.out } ∧
      (g = .uptime → t.ppm = s.ppm) ∧ (g = .co2Ppm → t.uptime = s.uptime)) ∧
    (exec (.log e) s = .next t → t = { s with out := t.out }) ∧
    (exec .now s = .next t → t = { s with ret := t.ret, draws := t.draws, env := { s.env with now := t.env.now } }) ∧
    (exec .intervalWait s = .next t → t = { s with ret := t.ret, env := { s.env with ticks := t.env.ticks } }) ∧
    (exec (.extRefresh k) s = .next t → t = { s with ret := t.ret, env := { s.env with ext := t.env.ext } }) ∧
    (exec (.report n) s = .next t → t = { s with out := t.out }) ∧
    (exec (.emit ev) s = .next t → t = { s with out := t.out })

/-- The sole writers of the sixteen elements (10_state.md sections 1 to 5 and 9): an instruction that changes an element is one
of those its rule names, or reset, or the port primitive through which those operations write a metric's register or append
to OUT. SEQ is written by the sequencer's operations alone. -/
def Obligations.EveryElementHasItsWriters : Prop :=
  ∀ (i : Instr) (s t : State), exec i s = .next t → i ≠ .reset →
    (t.seq ≠ s.seq → ∃ c, encode i = .seq c) ∧
    (t.out ≠ s.out → appends i = true) ∧
    (t.rxb ≠ s.rxb → i = .rdRxb) ∧
    (t.rxlen ≠ s.rxlen → i = .rdBegin ∨ i = .rdRxb) ∧
    (t.txi ≠ s.txi → i = .rdBegin ∨ i = .rdTxb) ∧
    (t.sidx ≠ s.sidx → i = .plIter ∨ i = .plCollect) ∧
    (t.allok ≠ s.allok → i = .plIter ∨ i = .plCollect) ∧
    (t.res ≠ s.res → i = .rdChkok ∨ i = .rdChkfail ∨ i = .rdFaultTx ∨ i = .rdFaultRx ∨ i = .plCallx) ∧
    (t.ppmValid ≠ s.ppmValid → i = .rdChkok) ∧
    (t.iter ≠ s.iter → i = .plIter) ∧
    (t.failcnt ≠ s.failcnt → i = .plTally) ∧
    (t.startTime ≠ s.startTime → i = .plStart) ∧
    (t.uptime ≠ s.uptime → i = .plIter ∨ ∃ v, i = .metricSet .uptime v) ∧
    (t.ppm ≠ s.ppm → i = .rdChkok ∨ ∃ v, i = .metricSet .co2Ppm v) ∧
    (t.reads ≠ s.reads → i = .rdBegin ∨ i = .metricInc .reads) ∧
    (t.readErrs ≠ s.readErrs → i = .rdChkfail ∨ i = .rdFaultTx ∨ i = .rdFaultRx ∨ i = .metricInc .readErrs)

/-- "No rule writes a parameter" (00_scope.md section 4): no step changes one. -/
def Obligations.NoStepWritesAParameter : Prop :=
  ∀ s t : State, step s = .next t → t.params = s.params

/-- OUT is the list of every event since reset, in order (10_state.md section 9): a step other than reset only appends, and it
appends at most three events. -/
def Obligations.OutOnlyGrows : Prop :=
  ∀ s t : State, step s = .next t → s.resetReq = false → ∃ es : List Event, t.out = s.out ++ es ∧ es.length ≤ 3

/-! ## Whole-machine rules -/

/-- The complete transition graph of SEQ (42_pollloop.md section 3): a step other than reset takes one of the sixteen edges, or
is a hold or the stopped state, in which nothing changes. That a hold and the stopped state are steps to the same state is
the model's (logs 7 and 8). -/
def Obligations.OnlyTheSixteenEdges : Prop :=
  ∀ s t : State, s.resetReq = false → step s = .next t → 
    (s.seq, t.seq) ∈ seqEdges ∨ ((held s = true ∨ s.seq = sStopped) ∧ t = s)

/-- Every refresh ends, provided the ports answer (41_reader.md section 3): at most 21 operations, RD.BEGIN and at most 20 after
it; each step in S_TX, S_RX or S_CHECK that answers a next state ends the refresh in S_COLLECT, or brings its end nearer, or
is a hold, in which a port has not answered and nothing changes. That a hold is a step to the same state is the model's
(log 7). -/
def Obligations.EveryRefreshEnds : Prop :=
  (∀ s t : State, exec .rdBegin s = .next t → refreshLeft t = 20) ∧
  (∀ s t : State, s.resetReq = false → inRefresh s = true → step s = .next t →
    t.seq = sCollect ∨ (inRefresh t = true ∧ refreshLeft t < refreshLeft s) ∨ (t = s ∧ held s = true))

/-- The transfer of one whole refresh (41_reader.md section 3, the frame-level view): when the channel takes all nine request
bytes and delivers nine bytes, the twenty operations RD.BEGIN, nine RD.TXB, nine RD.RXB and RD.RXEND send exactly the request
in order, leave exactly the nine bytes in RXB, count one read and change nothing else. -/
def Obligations.WholeRefreshTransfersTheFrames : Prop :=
  ∀ (s : State) (b : Vector Byte 9) (txRest : List TxAnswer) (rxRest : List RxAnswer),
    s.resetReq = false → s.params.legal = true → s.seq = sCall → s.params.readers[s.sidx]? = some .carbon →
    s.reads + 1 < 2 ^ s.params.cntW →
    s.env.tx = List.replicate 9 .accepted ++ txRest → s.env.rx = b.toList.map .byte ++ rxRest →
      Host.Core.run core 20 s = .next { s with
        seq := sCheck, reads := s.reads + 1, txi := 9#4, rxlen := 9#4, rxb := b
        out := s.out ++ .inc .reads :: Config.req.map .tx
        env := { s.env with tx := txRest, rx := rxRest } }

/-- FAILCNT counts the longest suffix of failed iterations, and the block is stopped after an iteration exactly when that
length is MAX_CONSECUTIVE_FAILS (42_pollloop.md section 4), for every sequence of outcomes that no earlier iteration has
stopped. -/
def Obligations.FailcntIsTheFailedSuffix : Prop :=
  ∀ (s : State) (os : List Bool), s.failcnt = 0 → 1 ≤ s.params.maxFails →
    (∀ k, k < os.length → failSuffix (os.take k) ≠ s.params.maxFails) →
    (os.foldl tallyOutcome s).failcnt = failSuffix os ∧
    (os ≠ [] → ((os.foldl tallyOutcome s).seq = sStopped ↔ failSuffix os = s.params.maxFails))

/-- The metric registers are write-only (10_state.md section 5): a run is the same, but for those registers, whatever values
UPTIME, PPM, PPM_VALID, READS and READ_ERRS hold, as long as the two counters are below the top of their range. -/
def Obligations.MetricRegistersAreWriteOnly : Prop :=
  ∀ (s t : State) (u : Nat) (p : Reading) (pv : Bool) (r e : Nat),
    r + 1 < 2 ^ s.params.cntW → e + 1 < 2 ^ s.params.cntW → step s = .next t →
      ∃ (u' : Nat) (p' : Reading) (pv' : Bool) (r' e' : Nat),
        step { s with uptime := u, ppm := p, ppmValid := pv, reads := r, readErrs := e } =
          .next { t with uptime := u', ppm := p', ppmValid := pv', reads := r', readErrs := e' }

/-- No operation reads an element before an operation has written it (10_state.md section 8): two states that differ only in
elements holding no value step alike, and into two such states. So no run depends on the values log 1 names for reset. -/
def Obligations.UnwrittenElementsAreNeverRead : Prop :=
  ∀ s s' : State, SameWritten s s' →
    (∀ t, step s = .next t → ∃ t', step s' = .next t' ∧ SameWritten t t') ∧
    (∀ f, step s = .fault f → step s' = .fault f) ∧
    (∀ r, step s = .refused r → step s' = .refused r)

/-- The state after reset is a good state. -/
def Obligations.ResetStateIsGood : Prop := Inv State.reset

/-- Every step from a good state leads to a good state, whatever the ports answer, with reset asserted or not, under all legal
parameters (10_state.md section 7, strengthened to be inductive). -/
def Obligations.EveryStepKeepsTheInvariants : Prop :=
  ∀ s t : State, Inv s → step s = .next t → Inv t

/-- "No exception ever escapes" (60_exceptions.md section 5): in a good state the step answers a next state, or
CounterOverflow, and nothing else: it is never refused, never raises DecodeUnvalidated, and no received byte and no answer
stops it. Among the next states are a hold and the stopped state, steps to the same state (the model's: logs 7 and 8). -/
def Obligations.GoodStatesOnlyOverflow : Prop :=
  ∀ s : State, Inv s →
    (∃ t, step s = .next t) ∨ (∃ x, step s = .fault (.counterOverflow x))
end

