-- ==== Sys2Proof/Laws/Frame.lean ====
section
/-! SUPPORT. The codec's small lemmas: the header and checksum tests as propositions, the accumulated sum, and the decoding
of a response by its length. -/

namespace Sys2Proof.Machine

theorem headerOk_iff (r : Frame) : headerOk r = true ↔ r[0]? = some Config.hdr0 ∧ r[1]? = some Config.hdr1 := by
  simp [headerOk]

theorem sumOk_iff (r : Frame) : sumOk r = true ↔ frameSum r + frameTrailer r = 0 := by
  simp [sumOk]

/-- Adding bytes one after another is adding their numbers and reducing once (R97 a). -/
theorem foldl_add_toNat (l : List Byte) (a : Byte) :
    (l.foldl (· + ·) a) = a + BitVec.ofNat 8 ((l.map BitVec.toNat).sum) := by
  induction l generalizing a with
  | nil => simp
  | cons b l ih =>
    simp only [List.foldl_cons, ih, List.map_cons, List.sum_cons, BitVec.ofNat_add, BitVec.ofNat_toNat,
      BitVec.setWidth_eq]
    ac_rfl

/-- CLASSIFY answers OK exactly when its three tests pass (R93). -/
theorem classifyFrame_ok_iff (r : Frame) :
    classifyFrame r = .ok ↔ Config.minLen ≤ r.length ∧ headerOk r = true ∧ sumOk r = true := by
  unfold classifyFrame
  by_cases h : r.length < Config.minLen
  · simp [h]
  · cases hh : headerOk r <;> cases hs : sumOk r <;> simp [h]
    omega

/-- VALIDATE is CLASSIFY answering OK (R94). -/
theorem validateFrame_iff (r : Frame) : validateFrame r = true ↔ classifyFrame r = .ok := by
  simp [validateFrame]

/-- DECODE has a value exactly on the valid sequences (R96, U1). -/
theorem decodeReading_eq_some {r : Frame} {v : Reading} :
    decodeReading r = some v ↔ validateFrame r = true ∧ assembleReading r = v := by
  unfold decodeReading
  split <;> simp_all

end Sys2Proof.Machine

namespace Sys2Proof

theorem decodeFrame_req : decodeFrame Config.req = .ok .buildreq := by simp [decodeFrame]

theorem decodeFrame_cons {a b : Byte} {r : Frame} (h : a :: b :: r ≠ Config.req) :
    decodeFrame (a :: b :: r) =
      if r.length < 2 then .error .short
      else if a = Config.hdr0 ∧ b = Config.hdr1 then decodeBody r
      else if 7 < r.length then .error .long
      else .error .badHdr := by
  unfold decodeFrame
  rw [if_neg h]

end Sys2Proof
end

