-- ==== Sys2Proof/Laws/State.lean ====
section
/-! SUPPORT. One lemma for each field of State under each named update, true by rfl. -/

namespace Sys2Proof.Machine

section setSeq

variable (s : State) (c : SeqCode)

@[simp] theorem State.setSeq_seq : (s.setSeq c).seq = c := rfl
@[simp] theorem State.setSeq_iter : (s.setSeq c).iter = s.iter := rfl
@[simp] theorem State.setSeq_failcnt : (s.setSeq c).failcnt = s.failcnt := rfl
@[simp] theorem State.setSeq_startTime : (s.setSeq c).startTime = s.startTime := rfl
@[simp] theorem State.setSeq_uptime : (s.setSeq c).uptime = s.uptime := rfl
@[simp] theorem State.setSeq_ppm : (s.setSeq c).ppm = s.ppm := rfl
@[simp] theorem State.setSeq_ppmValid : (s.setSeq c).ppmValid = s.ppmValid := rfl
@[simp] theorem State.setSeq_reads : (s.setSeq c).reads = s.reads := rfl
@[simp] theorem State.setSeq_readErrs : (s.setSeq c).readErrs = s.readErrs := rfl
@[simp] theorem State.setSeq_rxlen : (s.setSeq c).rxlen = s.rxlen := rfl
@[simp] theorem State.setSeq_txi : (s.setSeq c).txi = s.txi := rfl
@[simp] theorem State.setSeq_sidx : (s.setSeq c).sidx = s.sidx := rfl
@[simp] theorem State.setSeq_allok : (s.setSeq c).allok = s.allok := rfl
@[simp] theorem State.setSeq_res : (s.setSeq c).res = s.res := rfl
@[simp] theorem State.setSeq_rxb : (s.setSeq c).rxb = s.rxb := rfl
@[simp] theorem State.setSeq_out : (s.setSeq c).out = s.out := rfl
@[simp] theorem State.setSeq_params : (s.setSeq c).params = s.params := rfl
@[simp] theorem State.setSeq_env : (s.setSeq c).env = s.env := rfl
@[simp] theorem State.setSeq_draws : (s.setSeq c).draws = s.draws := rfl
@[simp] theorem State.setSeq_ret : (s.setSeq c).ret = s.ret := rfl
@[simp] theorem State.setSeq_resetReq : (s.setSeq c).resetReq = s.resetReq := rfl

end setSeq

section emit

variable (s : State) (e : Event)

@[simp] theorem State.emit_seq : (s.emit e).seq = s.seq := rfl
@[simp] theorem State.emit_iter : (s.emit e).iter = s.iter := rfl
@[simp] theorem State.emit_failcnt : (s.emit e).failcnt = s.failcnt := rfl
@[simp] theorem State.emit_startTime : (s.emit e).startTime = s.startTime := rfl
@[simp] theorem State.emit_uptime : (s.emit e).uptime = s.uptime := rfl
@[simp] theorem State.emit_ppm : (s.emit e).ppm = s.ppm := rfl
@[simp] theorem State.emit_ppmValid : (s.emit e).ppmValid = s.ppmValid := rfl
@[simp] theorem State.emit_reads : (s.emit e).reads = s.reads := rfl
@[simp] theorem State.emit_readErrs : (s.emit e).readErrs = s.readErrs := rfl
@[simp] theorem State.emit_rxlen : (s.emit e).rxlen = s.rxlen := rfl
@[simp] theorem State.emit_txi : (s.emit e).txi = s.txi := rfl
@[simp] theorem State.emit_sidx : (s.emit e).sidx = s.sidx := rfl
@[simp] theorem State.emit_allok : (s.emit e).allok = s.allok := rfl
@[simp] theorem State.emit_res : (s.emit e).res = s.res := rfl
@[simp] theorem State.emit_rxb : (s.emit e).rxb = s.rxb := rfl
@[simp] theorem State.emit_out : (s.emit e).out = s.out ++ [e] := rfl
@[simp] theorem State.emit_params : (s.emit e).params = s.params := rfl
@[simp] theorem State.emit_env : (s.emit e).env = s.env := rfl
@[simp] theorem State.emit_draws : (s.emit e).draws = s.draws := rfl
@[simp] theorem State.emit_ret : (s.emit e).ret = s.ret := rfl
@[simp] theorem State.emit_resetReq : (s.emit e).resetReq = s.resetReq := rfl

end emit

section setRet

variable (s : State) (r : Ret)

@[simp] theorem State.setRet_seq : (s.setRet r).seq = s.seq := rfl
@[simp] theorem State.setRet_iter : (s.setRet r).iter = s.iter := rfl
@[simp] theorem State.setRet_failcnt : (s.setRet r).failcnt = s.failcnt := rfl
@[simp] theorem State.setRet_startTime : (s.setRet r).startTime = s.startTime := rfl
@[simp] theorem State.setRet_uptime : (s.setRet r).uptime = s.uptime := rfl
@[simp] theorem State.setRet_ppm : (s.setRet r).ppm = s.ppm := rfl
@[simp] theorem State.setRet_ppmValid : (s.setRet r).ppmValid = s.ppmValid := rfl
@[simp] theorem State.setRet_reads : (s.setRet r).reads = s.reads := rfl
@[simp] theorem State.setRet_readErrs : (s.setRet r).readErrs = s.readErrs := rfl
@[simp] theorem State.setRet_rxlen : (s.setRet r).rxlen = s.rxlen := rfl
@[simp] theorem State.setRet_txi : (s.setRet r).txi = s.txi := rfl
@[simp] theorem State.setRet_sidx : (s.setRet r).sidx = s.sidx := rfl
@[simp] theorem State.setRet_allok : (s.setRet r).allok = s.allok := rfl
@[simp] theorem State.setRet_res : (s.setRet r).res = s.res := rfl
@[simp] theorem State.setRet_rxb : (s.setRet r).rxb = s.rxb := rfl
@[simp] theorem State.setRet_out : (s.setRet r).out = s.out := rfl
@[simp] theorem State.setRet_params : (s.setRet r).params = s.params := rfl
@[simp] theorem State.setRet_env : (s.setRet r).env = s.env := rfl
@[simp] theorem State.setRet_draws : (s.setRet r).draws = s.draws := rfl
@[simp] theorem State.setRet_ret : (s.setRet r).ret = r := rfl
@[simp] theorem State.setRet_resetReq : (s.setRet r).resetReq = s.resetReq := rfl

end setRet

section setRes

variable (s : State) (b : Bool)

@[simp] theorem State.setRes_seq : (s.setRes b).seq = s.seq := rfl
@[simp] theorem State.setRes_iter : (s.setRes b).iter = s.iter := rfl
@[simp] theorem State.setRes_failcnt : (s.setRes b).failcnt = s.failcnt := rfl
@[simp] theorem State.setRes_startTime : (s.setRes b).startTime = s.startTime := rfl
@[simp] theorem State.setRes_uptime : (s.setRes b).uptime = s.uptime := rfl
@[simp] theorem State.setRes_ppm : (s.setRes b).ppm = s.ppm := rfl
@[simp] theorem State.setRes_ppmValid : (s.setRes b).ppmValid = s.ppmValid := rfl
@[simp] theorem State.setRes_reads : (s.setRes b).reads = s.reads := rfl
@[simp] theorem State.setRes_readErrs : (s.setRes b).readErrs = s.readErrs := rfl
@[simp] theorem State.setRes_rxlen : (s.setRes b).rxlen = s.rxlen := rfl
@[simp] theorem State.setRes_txi : (s.setRes b).txi = s.txi := rfl
@[simp] theorem State.setRes_sidx : (s.setRes b).sidx = s.sidx := rfl
@[simp] theorem State.setRes_allok : (s.setRes b).allok = s.allok := rfl
@[simp] theorem State.setRes_res : (s.setRes b).res = b := rfl
@[simp] theorem State.setRes_rxb : (s.setRes b).rxb = s.rxb := rfl
@[simp] theorem State.setRes_out : (s.setRes b).out = s.out := rfl
@[simp] theorem State.setRes_params : (s.setRes b).params = s.params := rfl
@[simp] theorem State.setRes_env : (s.setRes b).env = s.env := rfl
@[simp] theorem State.setRes_draws : (s.setRes b).draws = s.draws := rfl
@[simp] theorem State.setRes_ret : (s.setRes b).ret = s.ret := rfl
@[simp] theorem State.setRes_resetReq : (s.setRes b).resetReq = s.resetReq := rfl

end setRes

section setAllok

variable (s : State) (b : Bool)

@[simp] theorem State.setAllok_seq : (s.setAllok b).seq = s.seq := rfl
@[simp] theorem State.setAllok_iter : (s.setAllok b).iter = s.iter := rfl
@[simp] theorem State.setAllok_failcnt : (s.setAllok b).failcnt = s.failcnt := rfl
@[simp] theorem State.setAllok_startTime : (s.setAllok b).startTime = s.startTime := rfl
@[simp] theorem State.setAllok_uptime : (s.setAllok b).uptime = s.uptime := rfl
@[simp] theorem State.setAllok_ppm : (s.setAllok b).ppm = s.ppm := rfl
@[simp] theorem State.setAllok_ppmValid : (s.setAllok b).ppmValid = s.ppmValid := rfl
@[simp] theorem State.setAllok_reads : (s.setAllok b).reads = s.reads := rfl
@[simp] theorem State.setAllok_readErrs : (s.setAllok b).readErrs = s.readErrs := rfl
@[simp] theorem State.setAllok_rxlen : (s.setAllok b).rxlen = s.rxlen := rfl
@[simp] theorem State.setAllok_txi : (s.setAllok b).txi = s.txi := rfl
@[simp] theorem State.setAllok_sidx : (s.setAllok b).sidx = s.sidx := rfl
@[simp] theorem State.setAllok_allok : (s.setAllok b).allok = b := rfl
@[simp] theorem State.setAllok_res : (s.setAllok b).res = s.res := rfl
@[simp] theorem State.setAllok_rxb : (s.setAllok b).rxb = s.rxb := rfl
@[simp] theorem State.setAllok_out : (s.setAllok b).out = s.out := rfl
@[simp] theorem State.setAllok_params : (s.setAllok b).params = s.params := rfl
@[simp] theorem State.setAllok_env : (s.setAllok b).env = s.env := rfl
@[simp] theorem State.setAllok_draws : (s.setAllok b).draws = s.draws := rfl
@[simp] theorem State.setAllok_ret : (s.setAllok b).ret = s.ret := rfl
@[simp] theorem State.setAllok_resetReq : (s.setAllok b).resetReq = s.resetReq := rfl

end setAllok

section setPpmValid

variable (s : State)

@[simp] theorem State.setPpmValid_seq : (s.setPpmValid).seq = s.seq := rfl
@[simp] theorem State.setPpmValid_iter : (s.setPpmValid).iter = s.iter := rfl
@[simp] theorem State.setPpmValid_failcnt : (s.setPpmValid).failcnt = s.failcnt := rfl
@[simp] theorem State.setPpmValid_startTime : (s.setPpmValid).startTime = s.startTime := rfl
@[simp] theorem State.setPpmValid_uptime : (s.setPpmValid).uptime = s.uptime := rfl
@[simp] theorem State.setPpmValid_ppm : (s.setPpmValid).ppm = s.ppm := rfl
@[simp] theorem State.setPpmValid_ppmValid : (s.setPpmValid).ppmValid = true := rfl
@[simp] theorem State.setPpmValid_reads : (s.setPpmValid).reads = s.reads := rfl
@[simp] theorem State.setPpmValid_readErrs : (s.setPpmValid).readErrs = s.readErrs := rfl
@[simp] theorem State.setPpmValid_rxlen : (s.setPpmValid).rxlen = s.rxlen := rfl
@[simp] theorem State.setPpmValid_txi : (s.setPpmValid).txi = s.txi := rfl
@[simp] theorem State.setPpmValid_sidx : (s.setPpmValid).sidx = s.sidx := rfl
@[simp] theorem State.setPpmValid_allok : (s.setPpmValid).allok = s.allok := rfl
@[simp] theorem State.setPpmValid_res : (s.setPpmValid).res = s.res := rfl
@[simp] theorem State.setPpmValid_rxb : (s.setPpmValid).rxb = s.rxb := rfl
@[simp] theorem State.setPpmValid_out : (s.setPpmValid).out = s.out := rfl
@[simp] theorem State.setPpmValid_params : (s.setPpmValid).params = s.params := rfl
@[simp] theorem State.setPpmValid_env : (s.setPpmValid).env = s.env := rfl
@[simp] theorem State.setPpmValid_draws : (s.setPpmValid).draws = s.draws := rfl
@[simp] theorem State.setPpmValid_ret : (s.setPpmValid).ret = s.ret := rfl
@[simp] theorem State.setPpmValid_resetReq : (s.setPpmValid).resetReq = s.resetReq := rfl

end setPpmValid

section memWrite

variable (s : State) (b : Byte)

@[simp] theorem memWrite_seq : (memWrite s b).seq = s.seq := by unfold memWrite; split <;> rfl
@[simp] theorem memWrite_iter : (memWrite s b).iter = s.iter := by unfold memWrite; split <;> rfl
@[simp] theorem memWrite_failcnt : (memWrite s b).failcnt = s.failcnt := by unfold memWrite; split <;> rfl
@[simp] theorem memWrite_startTime : (memWrite s b).startTime = s.startTime := by unfold memWrite; split <;> rfl
@[simp] theorem memWrite_uptime : (memWrite s b).uptime = s.uptime := by unfold memWrite; split <;> rfl
@[simp] theorem memWrite_ppm : (memWrite s b).ppm = s.ppm := by unfold memWrite; split <;> rfl
@[simp] theorem memWrite_ppmValid : (memWrite s b).ppmValid = s.ppmValid := by unfold memWrite; split <;> rfl
@[simp] theorem memWrite_reads : (memWrite s b).reads = s.reads := by unfold memWrite; split <;> rfl
@[simp] theorem memWrite_readErrs : (memWrite s b).readErrs = s.readErrs := by unfold memWrite; split <;> rfl
@[simp] theorem memWrite_rxlen : (memWrite s b).rxlen = s.rxlen := by unfold memWrite; split <;> rfl
@[simp] theorem memWrite_txi : (memWrite s b).txi = s.txi := by unfold memWrite; split <;> rfl
@[simp] theorem memWrite_sidx : (memWrite s b).sidx = s.sidx := by unfold memWrite; split <;> rfl
@[simp] theorem memWrite_allok : (memWrite s b).allok = s.allok := by unfold memWrite; split <;> rfl
@[simp] theorem memWrite_res : (memWrite s b).res = s.res := by unfold memWrite; split <;> rfl
@[simp] theorem memWrite_out : (memWrite s b).out = s.out := by unfold memWrite; split <;> rfl
@[simp] theorem memWrite_params : (memWrite s b).params = s.params := by unfold memWrite; split <;> rfl
@[simp] theorem memWrite_env : (memWrite s b).env = s.env := by unfold memWrite; split <;> rfl
@[simp] theorem memWrite_draws : (memWrite s b).draws = s.draws := by unfold memWrite; split <;> rfl
@[simp] theorem memWrite_ret : (memWrite s b).ret = s.ret := by unfold memWrite; split <;> rfl
@[simp] theorem memWrite_resetReq : (memWrite s b).resetReq = s.resetReq := by unfold memWrite; split <;> rfl

end memWrite

end Sys2Proof.Machine
end

