-- ==== Sys2Proof/Laws/Ops.lean ====
section
/-! SUPPORT. What each shared operation can do, said once: the port primitives, the buffer and the failure entry. -/

namespace Sys2Proof.Machine

variable {s t : State}

/-! ## Outcomes -/

@[simp] theorem ofExcept_ok (s : State) : ofExcept (.ok s) = .next s := rfl

@[simp] theorem ofExcept_error (f : Fault) : ofExcept (.error f) = .fault f := rfl

theorem ofExcept_next {r : Except Fault State} (h : ofExcept r = .next t) : r = .ok t := by
  cases r with
  | ok a => simpa [ofExcept] using h
  | error f => simp [ofExcept] at h

/-! ## Metrics -/

theorem metricInc_reads (h : s.reads + 1 < 2 ^ s.params.cntW) :
    metricInc .reads s = .ok { s with reads := s.reads + 1, out := s.out ++ [.inc .reads] } := by
  simp [metricInc, h, State.emit]

theorem metricInc_readErrs (h : s.readErrs + 1 < 2 ^ s.params.cntW) :
    metricInc .readErrs s = .ok { s with readErrs := s.readErrs + 1, out := s.out ++ [.inc .readErrs] } := by
  simp [metricInc, h, State.emit]

theorem metricInc_reads_top (h : 2 ^ s.params.cntW ≤ s.reads + 1) :
    metricInc .reads s = .error (.counterOverflow .reads) := by
  simp [metricInc, Nat.not_lt.mpr h]

theorem metricInc_readErrs_top (h : 2 ^ s.params.cntW ≤ s.readErrs + 1) :
    metricInc .readErrs s = .error (.counterOverflow .readErrs) := by
  simp [metricInc, Nat.not_lt.mpr h]

/-- `MetricInc` changes its own register and OUT, or is a counter overflow. -/
theorem metricInc_cases (m : Counter) (s : State) :
    (∃ t, metricInc m s = .ok t ∧
      t = { s with reads := t.reads, readErrs := t.readErrs, out := s.out ++ [.inc m] } ∧
      t.reads = s.reads + (if m = .reads then 1 else 0) ∧
      t.readErrs = s.readErrs + (if m = .readErrs then 1 else 0)) ∨
    (∃ x, metricInc m s = .error (.counterOverflow x)) := by
  cases m with
  | reads =>
    by_cases h : s.reads + 1 < 2 ^ s.params.cntW
    · exact .inl ⟨_, metricInc_reads h, by simp⟩
    · exact .inr ⟨_, metricInc_reads_top (Nat.not_lt.mp h)⟩
  | readErrs =>
    by_cases h : s.readErrs + 1 < 2 ^ s.params.cntW
    · exact .inl ⟨_, metricInc_readErrs h, by simp⟩
    · exact .inr ⟨_, metricInc_readErrs_top (Nat.not_lt.mp h)⟩

@[simp] theorem metricSet_uptime (v : Nat) (s : State) : metricSet .uptime v s =
    { s with uptime := v % 2 ^ s.params.timeW, out := s.out ++ [.set .uptime (v % 2 ^ s.params.timeW)] } := rfl

@[simp] theorem metricSet_co2Ppm (v : Nat) (s : State) : metricSet .co2Ppm v s =
    { s with ppm := BitVec.ofNat 16 v, out := s.out ++ [.set .co2Ppm (v % 2 ^ 16)] } := rfl

/-! ## Answers of the ports -/

@[simp] theorem takeNow_cons {v : Nat} {rest : List Nat} (h : s.env.now = v :: rest) :
    takeNow s = (v % 2 ^ s.params.timeW, { s with env := { s.env with now := rest } }) := by
  simp [takeNow, h]

@[simp] theorem takeNow_nil (h : s.env.now = []) :
    takeNow s = (Config.nowAnswer s.draws % 2 ^ s.params.timeW, { s with draws := s.draws + 1 }) := by
  simp [takeNow, h]

@[simp] theorem takeTx_cons {a : TxAnswer} {rest : List TxAnswer} (h : s.env.tx = a :: rest) :
    takeTx s = some (a, { s with env := { s.env with tx := rest } }) := by
  simp [takeTx, h]

@[simp] theorem takeTx_nil (h : s.env.tx = []) : takeTx s = none := by simp [takeTx, h]

@[simp] theorem takeRx_cons {a : RxAnswer} {rest : List RxAnswer} (h : s.env.rx = a :: rest) :
    takeRx s = some (a, { s with env := { s.env with rx := rest } }) := by
  simp [takeRx, h]

@[simp] theorem takeRx_nil (h : s.env.rx = []) : takeRx s = none := by simp [takeRx, h]

@[simp] theorem takeExt_cons {r : Bool} {rest : List Bool} (h : s.env.ext = r :: rest) :
    takeExt s = some (r, { s with env := { s.env with ext := rest } }) := by
  simp [takeExt, h]

@[simp] theorem takeExt_nil (h : s.env.ext = []) : takeExt s = none := by simp [takeExt, h]

@[simp] theorem takeTick_succ {n : Nat} (h : s.env.ticks = n + 1) :
    takeTick s = some { s with env := { s.env with ticks := n } } := by
  simp [takeTick, h]

@[simp] theorem takeTick_zero (h : s.env.ticks = 0) : takeTick s = none := by simp [takeTick, h]

/-! ## The receive buffer -/

/-- A byte stored is the byte read back at its index. -/
theorem memWrite_get_same (b : Byte) (h : storeIndex s < 9) : (memWrite s b).rxb[storeIndex s]? = some b := by
  simp [memWrite, h]

/-- A store leaves every other byte of the buffer alone. -/
theorem memWrite_get_other (b : Byte) {i : Nat} (h : i ≠ storeIndex s) : (memWrite s b).rxb[i]? = s.rxb[i]? := by
  unfold memWrite
  split
  · simp [Ne.symm h]
  · rfl

/-- RESP is there for every legal RXLEN, and has RXLEN bytes. -/
theorem resp_some (h : s.rxlen ≤ 9#4) :
    resp s = some (s.rxb.toList.take s.rxlen.toNat) ∧ (s.rxb.toList.take s.rxlen.toNat).length = s.rxlen.toNat := by
  have h9 : s.rxlen.toNat ≤ 9 := h
  simp [resp, memRead, Config.rxMax, h9]

/-! ## Failure entry -/

/-- What a read failure does (R176): it completes, or READ_ERRS is at the top of its range. -/
theorem raiseFailure_cases (f : Failure) (s : State) :
    raiseFailure f s = .ok
      { s with
        readErrs := s.readErrs + 1, res := false, seq := sCollect
        out := (failureFirstLog f s).out ++ [.inc .readErrs] ++ [.log (failureLog f s.rxlen)] } ∨
    raiseFailure f s = .error (.counterOverflow .readErrs) := by
  have hf : failureFirstLog f s = { s with out := (failureFirstLog f s).out } := by
    cases f <;> rfl
  by_cases h : s.readErrs + 1 < 2 ^ s.params.cntW
  · left
    rw [raiseFailure, hf, metricInc_readErrs (by simpa using h)]
    rfl
  · right
    rw [raiseFailure, hf, metricInc_readErrs_top (by simpa using Nat.not_lt.mp h)]

end Sys2Proof.Machine
end

