-- ==== Sys2Proof/Laws/PerInstr.lean ====
section
/-! SUPPORT. The per-instruction family `Coded`: the bits an instruction is encoded in are bits its table row can have. -/

namespace Sys2Proof.Laws.Coded

/-- A wire frame has 4 to 9 bytes and begins with FF (R70 to R72), a code of SEQ is 0 to 9 (R80), and any other row has no
bits (R82). -/
def Statement (i : Instr) : Prop :=
  match encode i with
  | .frame f => 4 ≤ f.length ∧ f.length ≤ 9 ∧ f.head? = some 0xFF
  | .seq c => c.toNat ≤ 9
  | .uncoded => True

theorem buildreq : Statement .buildreq := by simp [Statement, encode]
theorem decode4 (h cs : Byte) : Statement (.decode4 h cs) := by simp [Statement, encode]
theorem decode5 (h l cs : Byte) : Statement (.decode5 h l cs) := by simp [Statement, encode]
theorem decode6 (h l a cs : Byte) : Statement (.decode6 h l a cs) := by simp [Statement, encode]
theorem decode7 (h l a b cs : Byte) : Statement (.decode7 h l a b cs) := by simp [Statement, encode]
theorem decode8 (h l a b c cs : Byte) : Statement (.decode8 h l a b c cs) := by simp [Statement, encode]
theorem decode9 (h l a b c d cs : Byte) : Statement (.decode9 h l a b c d cs) := by simp [Statement, encode]
theorem chksum (r : Frame) : Statement (.chksum r) := trivial
theorem classify (r : Frame) : Statement (.classify r) := trivial
theorem validate (r : Frame) : Statement (.validate r) := trivial
theorem plStart : Statement .plStart := by simp [Statement, encode]
theorem plWait : Statement .plWait := by simp [Statement, encode]
theorem plIter : Statement .plIter := by simp [Statement, encode]
theorem rdBegin : Statement .rdBegin := by simp [Statement, encode]
theorem plCallx : Statement .plCallx := by simp [Statement, encode]
theorem rdTxb : Statement .rdTxb := by simp [Statement, encode]
theorem rdFaultTx : Statement .rdFaultTx := by simp [Statement, encode]
theorem rdRxb : Statement .rdRxb := by simp [Statement, encode]
theorem rdRxend : Statement .rdRxend := by simp [Statement, encode]
theorem rdFaultRx : Statement .rdFaultRx := by simp [Statement, encode]
theorem rdChkok : Statement .rdChkok := by simp [Statement, encode]
theorem rdChkfail : Statement .rdChkfail := by simp [Statement, encode]
theorem plCollect : Statement .plCollect := by simp [Statement, encode]
theorem plTally : Statement .plTally := by simp [Statement, encode]
theorem plHalt : Statement .plHalt := by simp [Statement, encode]
theorem reset : Statement .reset := trivial
theorem serTx (b : Byte) : Statement (.serTx b) := trivial
theorem serRx : Statement .serRx := trivial
theorem metricInc (m : Counter) : Statement (.metricInc m) := trivial
theorem metricSet (m : Gauge) (v : Nat) : Statement (.metricSet m v) := trivial
theorem log (e : LogEntry) : Statement (.log e) := trivial
theorem now : Statement .now := trivial
theorem intervalWait : Statement .intervalWait := trivial
theorem extRefresh (k : Nat) : Statement (.extRefresh k) := trivial
theorem report (n : Nat) : Statement (.report n) := trivial
theorem emit (e : Event) : Statement (.emit e) := trivial

end Sys2Proof.Laws.Coded
end

