-- ==== Sys2Proof/Laws/Select.lean ====
section
/-! SUPPORT. When each operation of the sequencer is selected (30_encoding.md R81), said once as a proposition, and what
the selection and the step answer. -/

namespace Sys2Proof.Machine

variable {s : State}

theorem enabled_plStart : enabled .plStart s = true ↔ s.seq = sStarting := by simp [enabled]

theorem enabled_plWait : enabled .plWait s = true ↔ s.seq = sWait ∧ (s.iter = 0 ∨ s.env.ticks ≠ 0) := by
  simp [enabled]

theorem enabled_plIter : enabled .plIter s = true ↔ s.seq = sIter := by simp [enabled]

theorem enabled_rdBegin : enabled .rdBegin s = true ↔ s.seq = sCall ∧ currentReader s = some .carbon := by
  simp [enabled]

theorem atExternal_iff : atExternal s = true ↔ ∃ k, currentReader s = some (.ext k) := by
  unfold atExternal
  split <;> simp_all

theorem enabled_plCallx :
    enabled .plCallx s = true ↔ s.seq = sCall ∧ (∃ k, currentReader s = some (.ext k)) ∧ ∃ r rest, s.env.ext = r :: rest := by
  simp [enabled, atExternal_iff, and_assoc, List.ne_nil_iff_exists_cons]

theorem enabled_rdTxb :
    enabled .rdTxb s = true ↔ s.seq = sTx ∧ s.txi < 9#4 ∧ ∃ rest, s.env.tx = .accepted :: rest := by
  simp [enabled, and_assoc, List.head?_eq_some_iff]

theorem enabled_rdFaultTx :
    enabled .rdFaultTx s = true ↔ s.seq = sTx ∧ s.txi < 9#4 ∧ ∃ info rest, s.env.tx = .fault info :: rest := by
  simp only [enabled, Bool.and_eq_true, decide_eq_true_eq, and_assoc]
  split <;> simp_all

theorem enabled_rdRxb :
    enabled .rdRxb s = true ↔ s.seq = sRx ∧ s.rxlen < 9#4 ∧ ∃ b rest, s.env.rx = .byte b :: rest := by
  simp only [enabled, Bool.and_eq_true, decide_eq_true_eq, and_assoc]
  split <;> simp_all

theorem enabled_rdRxend :
    enabled .rdRxend s = true ↔
      s.seq = sRx ∧ (s.rxlen = 9#4 ∨ (s.rxlen < 9#4 ∧ ∃ rest, s.env.rx = .timeout :: rest)) := by
  simp [enabled, List.head?_eq_some_iff]

theorem enabled_rdFaultRx :
    enabled .rdFaultRx s = true ↔ s.seq = sRx ∧ s.rxlen < 9#4 ∧ ∃ info rest, s.env.rx = .fault info :: rest := by
  simp only [enabled, Bool.and_eq_true, decide_eq_true_eq, and_assoc]
  split <;> simp_all

theorem enabled_rdChkok : enabled .rdChkok s = true ↔ s.seq = sCheck ∧ respVerdict s = some .ok := by
  simp [enabled]

theorem enabled_rdChkfail :
    enabled .rdChkfail s = true ↔ s.seq = sCheck ∧ ∃ v, respVerdict s = some v ∧ v ≠ .ok := by
  simp only [enabled, Bool.and_eq_true, decide_eq_true_eq]
  split <;> simp_all

theorem enabled_plCollect : enabled .plCollect s = true ↔ s.seq = sCollect := by simp [enabled]

theorem enabled_plTally : enabled .plTally s = true ↔ s.seq = sTally := by simp [enabled]

theorem enabled_plHalt : enabled .plHalt s = true ↔ s.seq = sStopped := by simp [enabled]

/-- A meaning runs where its operation is selected. -/
theorem guarded_enabled {i : Instr} {r : Result} (h : enabled i s = true) : guarded i s r = r := by
  simp [guarded, h]

/-- A meaning is refused where its operation is not selected. -/
theorem guarded_not_enabled {i : Instr} {r : Result} (h : enabled i s = false) :
    guarded i s r = .refused .notSelected := by
  simp [guarded, h]

/-- A meaning that answers a next state was selected. -/
theorem guarded_next {i : Instr} {r : Result} {t : State} (h : guarded i s r = .next t) :
    enabled i s = true ∧ r = .next t := by
  unfold guarded at h
  split at h
  · exact ⟨‹_›, h⟩
  · cases h

/-- What the selection answers is a row with SEQ's code whose guard holds. -/
theorem choose_run {i : Instr} (h : choose s = .run i) : i ∈ decodeSeq s.seq ∧ enabled i s = true := by
  unfold choose at h
  split at h
  · rename_i j hj
    cases h
    exact ⟨List.mem_of_find?_eq_some hj, by simpa using List.find?_some hj⟩
  · split at h
    · cases h
    · split at h <;> cases h

/-- What one step without a reset can be: an operation the sequencer selects, or a hold, when it answers a
next state. -/
theorem step_next {t : State} (hi : s.resetReq = false) (h : step s = .next t) :
    (∃ i, i ∈ decodeSeq s.seq ∧ enabled i s = true ∧ exec i s = .next t) ∨ (choose s = .held ∧ t = s) := by
  unfold step at h
  simp only [hi, Bool.false_eq_true, if_false] at h
  split at h
  · cases hc : choose s with
    | run i =>
      rw [hc] at h
      exact .inl ⟨i, (choose_run hc).1, (choose_run hc).2, h⟩
    | held =>
      rw [hc] at h
      cases h
      exact .inr ⟨rfl, rfl⟩
    | badSeq => rw [hc] at h; cases h
    | illegal => rw [hc] at h; cases h
  · cases h

end Sys2Proof.Machine
end

