-- ==== Sys2Proof/Laws/Poll.lean ====
section
/-! SUPPORT. What a next state of each poll-loop operation is, said once (42_pollloop.md), for proofs over all steps. -/

namespace Sys2Proof.Machine

variable {s t : State}

/-- `Now()` gives a time of TIME_W bits and changes the answers and the draws alone (R156). -/
theorem takeNow_spec (s : State) : ∃ v d q, v < 2 ^ s.params.timeW ∧
    takeNow s = (v, { s with draws := d, env := { s.env with now := q } }) := by
  cases hq : s.env.now with
  | nil =>
    exact ⟨Config.nowAnswer s.draws % 2 ^ s.params.timeW, s.draws + 1, [], Nat.mod_lt _ (Nat.two_pow_pos _),
      by rw [takeNow_nil hq, ← hq]⟩
  | cons a q =>
    exact ⟨a % 2 ^ s.params.timeW, s.draws, q, Nat.mod_lt _ (Nat.two_pow_pos _), by rw [takeNow_cons hq]⟩

/-- PL.START (R131). -/
theorem exec_plStart_next (h : exec .plStart s = .next t) : s.seq = sStarting ∧ ∃ v d q, v < 2 ^ s.params.timeW ∧
    t = { s with
      startTime := v, out := s.out ++ [.started], seq := sWait, draws := d, env := { s.env with now := q } } := by
  simp only [exec, execPlStart] at h
  obtain ⟨he, h⟩ := guarded_next h
  obtain ⟨v, d, q, hv, hq⟩ := takeNow_spec s
  rw [hq] at h
  cases h
  exact ⟨enabled_plStart.mp he, v, d, q, hv, rfl⟩

/-- PL.WAIT (R132). -/
theorem exec_plWait_next (h : exec .plWait s = .next t) :
    s.seq = sWait ∧ ∃ n, t = { s with seq := sIter, env := { s.env with ticks := n } } := by
  simp only [exec, execPlWait] at h
  obtain ⟨he, h⟩ := guarded_next h
  obtain ⟨h1, h2⟩ := enabled_plWait.mp he
  split at h
  · cases h
    exact ⟨h1, s.env.ticks, rfl⟩
  · have hne : s.env.ticks ≠ 0 := by tauto
    obtain ⟨n, hn⟩ := Nat.exists_eq_succ_of_ne_zero hne
    simp only [takeTick_succ hn] at h
    cases h
    exact ⟨h1, n, rfl⟩

/-- PL.ITER (R133): the counter was below its top. -/
theorem exec_plIter_next (h : exec .plIter s = .next t) :
    s.seq = sIter ∧ s.iter + 1 < 2 ^ s.params.iterW ∧ ∃ v d q, v < 2 ^ s.params.timeW ∧
    t = { s with
      iter := s.iter + 1, uptime := v, out := s.out ++ [.set .uptime v], allok := true, sidx := 0, seq := sCall
      draws := d, env := { s.env with now := q } } := by
  simp only [exec, execPlIter] at h
  obtain ⟨he, h⟩ := guarded_next h
  obtain ⟨v, d, q, -, hq⟩ := takeNow_spec s
  rw [hq] at h
  split at h
  · rename_i hlt
    cases h
    exact ⟨enabled_plIter.mp he, hlt, timeSince s v % 2 ^ s.params.timeW, d, q, Nat.mod_lt _ (Nat.two_pow_pos _), rfl⟩
  · cases h

/-- PL.CALLX (R134). -/
theorem exec_plCallx_next (h : exec .plCallx s = .next t) :
    s.seq = sCall ∧ (∃ k, currentReader s = some (.ext k)) ∧
    ∃ r rest, s.env.ext = r :: rest ∧ t = { s with res := r, seq := sCollect, env := { s.env with ext := rest } } := by
  simp only [exec, execPlCallx] at h
  obtain ⟨he, h⟩ := guarded_next h
  obtain ⟨h1, h2, r, rest, h3⟩ := enabled_plCallx.mp he
  simp only [takeExt_cons h3] at h
  cases h
  exact ⟨h1, h2, r, rest, h3, rfl⟩

/-- PL.COLLECT (R135). -/
theorem exec_plCollect_next (h : exec .plCollect s = .next t) :
    s.seq = sCollect ∧ t = { s with
      allok := s.allok && s.res, sidx := s.sidx + 1
      seq := if s.sidx + 1 = s.params.nReaders then sTally else sCall } := by
  simp only [exec, execPlCollect] at h
  obtain ⟨he, h⟩ := guarded_next h
  cases h
  exact ⟨enabled_plCollect.mp he, rfl⟩

/-- PL.TALLY (R136). -/
theorem exec_plTally_next (h : exec .plTally s = .next t) :
    s.seq = sTally ∧ t =
      (if tallied s = s.params.maxFails then
        { s with failcnt := tallied s, out := s.out ++ [.report s.iter], seq := sStopped }
      else { s with failcnt := tallied s, seq := sWait }) := by
  simp only [exec, execPlTally] at h
  obtain ⟨he, h⟩ := guarded_next h
  cases h
  exact ⟨enabled_plTally.mp he, rfl⟩

/-- PL.HALT (R137). -/
theorem exec_plHalt_next (h : exec .plHalt s = .next t) : s.seq = sStopped ∧ t = s := by
  simp only [exec, execPlHalt] at h
  obtain ⟨he, h⟩ := guarded_next h
  cases h
  exact ⟨enabled_plHalt.mp he, rfl⟩

end Sys2Proof.Machine
end

