-- ==== Sys2Proof/Laws/Reader.lean ====
section
/-! SUPPORT. What a next state of each reader operation is, said once (41_reader.md), for proofs over all steps; and what a
step that answers a next state is. -/

namespace Sys2Proof.Machine

variable {s t : State}

/-- A read failure that completes (R176): READ_ERRS was below its top. -/
theorem raiseFailure_next {f : Failure} (h : ofExcept (raiseFailure f s) = .next t) :
    s.readErrs + 1 < 2 ^ s.params.cntW ∧ t = { s with
      readErrs := s.readErrs + 1, res := false, seq := sCollect
      out := (failureFirstLog f s).out ++ [.inc .readErrs] ++ [.log (failureLog f s.rxlen)] } := by
  have hf : failureFirstLog f s = { s with out := (failureFirstLog f s).out } := by cases f <;> rfl
  by_cases hlt : s.readErrs + 1 < 2 ^ s.params.cntW
  · rw [raiseFailure, hf, metricInc_readErrs (by simpa using hlt)] at h
    cases h
    exact ⟨hlt, rfl⟩
  · rw [raiseFailure, hf, metricInc_readErrs_top (by simpa using Nat.not_lt.mp hlt)] at h
    cases h

/-- RD.BEGIN (R111): READS was below its top. -/
theorem exec_rdBegin_next (h : exec .rdBegin s = .next t) :
    s.seq = sCall ∧ currentReader s = some .carbon ∧ s.reads + 1 < 2 ^ s.params.cntW ∧
    t = { s with reads := s.reads + 1, out := s.out ++ [.inc .reads], txi := 0, rxlen := 0, seq := sTx } := by
  simp only [exec, execRdBegin] at h
  obtain ⟨he, h⟩ := guarded_next h
  obtain ⟨h1, h2⟩ := enabled_rdBegin.mp he
  by_cases hr : s.reads + 1 < 2 ^ s.params.cntW
  · simp only [metricInc_reads hr] at h
    cases h
    exact ⟨h1, h2, hr, rfl⟩
  · simp only [metricInc_reads_top (Nat.not_lt.mp hr)] at h
    cases h

/-- RD.TXB (R112). -/
theorem exec_rdTxb_next (h : exec .rdTxb s = .next t) :
    s.seq = sTx ∧ s.txi < 9#4 ∧ ∃ rest, s.env.tx = .accepted :: rest ∧ t = { s with
      out := s.out ++ [.tx (reqByte s.txi)], txi := s.txi + 1, seq := if s.txi + 1 = 9#4 then sRx else sTx
      env := { s.env with tx := rest } } := by
  simp only [exec, execRdTxb] at h
  obtain ⟨he, h⟩ := guarded_next h
  obtain ⟨h1, h2, rest, h3⟩ := enabled_rdTxb.mp he
  simp only [takeTx_cons h3] at h
  cases h
  exact ⟨h1, h2, rest, h3, rfl⟩

/-- RD.RXB (R113). -/
theorem exec_rdRxb_next (h : exec .rdRxb s = .next t) :
    s.seq = sRx ∧ s.rxlen < 9#4 ∧ ∃ b rest, ∃ hl : s.rxlen.toNat < 9, s.env.rx = .byte b :: rest ∧ t = { s with
      rxb := s.rxb.set s.rxlen.toNat b hl, rxlen := s.rxlen + 1, env := { s.env with rx := rest } } := by
  simp only [exec, execRdRxb] at h
  obtain ⟨he, h⟩ := guarded_next h
  obtain ⟨h1, h2, b, rest, h3⟩ := enabled_rdRxb.mp he
  simp only [takeRx_cons h3] at h
  have hl : s.rxlen.toNat < 9 := h2
  cases h
  exact ⟨h1, h2, b, rest, hl, h3, by simp [memWrite, storeIndex, hl]⟩

/-- RD.RXEND (R114). -/
theorem exec_rdRxend_next (h : exec .rdRxend s = .next t) :
    s.seq = sRx ∧ s.rxlen ≤ 9#4 ∧ ∃ rest, t = { s with seq := sCheck, env := { s.env with rx := rest } } := by
  simp only [exec, execRdRxend] at h
  obtain ⟨he, h⟩ := guarded_next h
  obtain ⟨h1, h2 | ⟨h2, rest, h3⟩⟩ := enabled_rdRxend.mp he
  · rw [if_pos h2] at h
    cases h
    exact ⟨h1, by rw [h2]; decide, s.env.rx, rfl⟩
  · rw [if_neg (by rintro h9; rw [h9] at h2; exact absurd h2 (by decide))] at h
    simp only [takeRx_cons h3] at h
    cases h
    exact ⟨h1, BitVec.le_of_lt h2, rest, rfl⟩

/-- RD.FAULT in S_TX (R115). -/
theorem exec_rdFaultTx_next (h : exec .rdFaultTx s = .next t) :
    s.seq = sTx ∧ s.txi < 9#4 ∧ s.readErrs + 1 < 2 ^ s.params.cntW ∧
    ∃ info rest, s.env.tx = .fault info :: rest ∧ t = { s with
      readErrs := s.readErrs + 1, res := false, seq := sCollect
      out := s.out ++ [.inc .readErrs] ++ [.log (.transportFault info)], env := { s.env with tx := rest } } := by
  simp only [exec, execRdFaultTx] at h
  obtain ⟨he, h⟩ := guarded_next h
  obtain ⟨h1, h2, info, rest, h3⟩ := enabled_rdFaultTx.mp he
  simp only [takeTx_cons h3] at h
  obtain ⟨h4, h5⟩ := raiseFailure_next h
  exact ⟨h1, h2, h4, info, rest, h3, h5⟩

/-- RD.FAULT in S_RX (R115). -/
theorem exec_rdFaultRx_next (h : exec .rdFaultRx s = .next t) :
    s.seq = sRx ∧ s.rxlen < 9#4 ∧ s.readErrs + 1 < 2 ^ s.params.cntW ∧
    ∃ info rest, s.env.rx = .fault info :: rest ∧ t = { s with
      readErrs := s.readErrs + 1, res := false, seq := sCollect
      out := s.out ++ [.inc .readErrs] ++ [.log (.transportFault info)], env := { s.env with rx := rest } } := by
  simp only [exec, execRdFaultRx] at h
  obtain ⟨he, h⟩ := guarded_next h
  obtain ⟨h1, h2, info, rest, h3⟩ := enabled_rdFaultRx.mp he
  simp only [takeRx_cons h3] at h
  obtain ⟨h4, h5⟩ := raiseFailure_next h
  exact ⟨h1, h2, h4, info, rest, h3, h5⟩

/-- RD.CHKOK (R116). -/
theorem exec_rdChkok_next (h : exec .rdChkok s = .next t) :
    s.seq = sCheck ∧ respVerdict s = some .ok ∧ ∃ v : Reading, (resp s).bind decodeReading = some v ∧ t = { s with
      ppm := v, out := s.out ++ [.set .co2Ppm v.toNat], ppmValid := true, res := true, seq := sCollect } := by
  simp only [exec, execRdChkok] at h
  obtain ⟨he, h⟩ := guarded_next h
  obtain ⟨h1, h2⟩ := enabled_rdChkok.mp he
  cases hb : (resp s).bind decodeReading with
  | none => rw [hb] at h; cases h
  | some v =>
    rw [hb] at h
    cases h
    have hv : v.toNat % 65536 = v.toNat := Nat.mod_eq_of_lt v.isLt
    exact ⟨h1, h2, v, rfl, by simp [State.setPpmValid, State.setRes, State.setSeq, hv]⟩

/-- RD.CHKFAIL (R117): a failure entry for what CLASSIFY answered. -/
theorem exec_rdChkfail_next (h : exec .rdChkfail s = .next t) :
    s.seq = sCheck ∧ s.readErrs + 1 < 2 ^ s.params.cntW ∧
    ∃ v f, respVerdict s = some v ∧ failureOf v = some f ∧ t = { s with
      readErrs := s.readErrs + 1, res := false, seq := sCollect
      out := (failureFirstLog f s).out ++ [.inc .readErrs] ++ [.log (failureLog f s.rxlen)] } := by
  simp only [exec, execRdChkfail] at h
  obtain ⟨he, h⟩ := guarded_next h
  obtain ⟨h1, v, hv, -⟩ := enabled_rdChkfail.mp he
  simp only [hv, Option.bind] at h
  cases hf : failureOf v with
  | none => rw [hf] at h; cases h
  | some f =>
    rw [hf] at h
    obtain ⟨h4, h5⟩ := raiseFailure_next h
    exact ⟨h1, h4, v, f, hv, hf, h5⟩

/-- A step that answers a next state is a reset the host asserts, or one of the sequencer. -/
theorem step_next_cases (h : step s = .next t) :
    (s.resetReq = true ∧ exec .reset s = .next t) ∨
    (s.resetReq = false ∧
      ((∃ i, i ∈ decodeSeq s.seq ∧ enabled i s = true ∧ exec i s = .next t) ∨ (choose s = .held ∧ t = s))) := by
  cases hi : s.resetReq with
  | false => exact .inr ⟨rfl, step_next hi h⟩
  | true => exact .inl ⟨rfl, by simpa [step, hi] using h⟩

end Sys2Proof.Machine
end

