-- ==== Sys2Proof/Tests/Slice0.lean ====
section
/-! SUPPORT. Tests: ill-formed terms, words written out from 30_encoding.md, the vectors of 95_test_vectors.md one step at a
time, and for every obligation with hypotheses a state and operands that meet them. -/

namespace Sys2Proof.Tests

open Sys2Proof Sys2Proof.Machine

/-! ## Helpers -/

/-- The reset state with numbers in the elements that hold no value. -/
def base : State :=
  { State.reset with startTime := 0, allok := true, res := false, rxb := #v[0, 0, 0, 0, 0, 0, 0, 0, 0] }

/-- The parameters of O31, O32: the carbon reader and one external reader. -/
def twoReaders : Params := { readers := [.carbon, .ext 0] }

/-- `base` in S_CHECK with the bytes of a received frame. -/
def checking (n : Index) (r : Vector Byte 9) : State := { base with seq := sCheck, rxlen := n, rxb := r }

/-- V5, V10, V11 and V19 as buffers. -/
def v5 : Vector Byte 9 := #v[0xFF, 0x86, 0x00, 0x7A, 0, 0, 0, 0, 0]
def v10 : Vector Byte 9 := #v[0xFF, 0x86, 0x03, 0xE8, 0, 0, 0, 0, 0x15]
def v11 : Vector Byte 9 := #v[0xFF, 0x86, 0x03, 0xE8, 0, 0, 0, 0, 0x8F]
def v19 : Vector Byte 9 := #v[0xFF, 0x01, 0x86, 0, 0, 0, 0, 0, 0x79]

/-- The outcome is a next state with the property. -/
def after (r : Result) (p : State → Bool) : Bool :=
  match r with
  | .next t => p t
  | _ => false

/-- The outcome is this fault. -/
def faults (r : Result) (f : Fault) : Bool :=
  match r with
  | .fault g => g = f
  | _ => false

/-- The outcome is this refusal. -/
def refuses (r : Result) (f : Refusal) : Bool :=
  match r with
  | .refused g => g = f
  | _ => false

/-! ## Well-formedness: an ill-formed term for each check -/

theorem test_wf_decode4 : Instr.wf {} (.decode4 0x00 0x7A) = true ∧ Instr.wf {} (.decode4 0x00 0x7B) = false := by decide

theorem test_wf_decode5 : Instr.wf {} (.decode5 0x01 0x90 0xE9) = true ∧ Instr.wf {} (.decode5 0x01 0x90 0xE8) = false := by
  decide

theorem test_wf_decode6 : Instr.wf {} (.decode6 0 0 0 0x7A) = true ∧ Instr.wf {} (.decode6 0 0 1 0x7A) = false := by decide

theorem test_wf_decode7 : Instr.wf {} (.decode7 0 0 0 0 0x7A) = true ∧ Instr.wf {} (.decode7 0 0 0 1 0x7A) = false := by
  decide

theorem test_wf_decode8 :
    Instr.wf {} (.decode8 0x02 0x78 0 0 0 0x00) = true ∧ Instr.wf {} (.decode8 0x03 0xE8 0 0 0 0x00) = false := by decide

theorem test_wf_decode9 :
    Instr.wf {} (.decode9 0x03 0xE8 0 0 0 0 0x8F) = true ∧ Instr.wf {} (.decode9 0x03 0xE8 0 0 0 0 0x15) = false := by decide

theorem test_wf_chksum : Instr.wf {} (.chksum [0xFF, 0x86]) = true ∧ Instr.wf {} (.chksum [0xFF]) = false := by decide

theorem test_wf_metricSet :
    Instr.wf {} (.metricSet .co2Ppm 65535) = true ∧ Instr.wf {} (.metricSet .co2Ppm 65536) = false ∧
    Instr.wf {} (.metricSet .uptime 4294967295) = true ∧ Instr.wf {} (.metricSet .uptime 4294967296) = false := by decide

theorem test_wf_log :
    Instr.wf {} (.log (.readInvalid .short 9)) = true ∧ Instr.wf {} (.log (.readInvalid .short 10)) = false := by decide

theorem test_wf_extRefresh :
    Instr.wf twoReaders (.extRefresh 0) = true ∧ Instr.wf twoReaders (.extRefresh 1) = false := by decide

theorem test_wf_report : Instr.wf {} (.report 4294967295) = true ∧ Instr.wf {} (.report 4294967296) = false := by decide

theorem test_wf_emit :
    Instr.wf {} (.emit .started) = true ∧ Instr.wf {} (.emit (.set .co2Ppm 65536)) = false ∧
    Instr.wf {} (.emit (.log (.readInvalid .badHdr 10))) = false ∧ Instr.wf {} (.emit (.report 4294967296)) = false := by
  decide

/-! ## Decoding, from the patterns of 30_encoding.md -/

/-- R71. -/
theorem test_decode_req9 : decodeTableWord 72 0xFF0186000000000079 = some .buildreq := by decide

/-- R72: `FF 86 hh cs`, hh = 01, cs = 79 (V6). -/
theorem test_decode_resp4 : decodeTableWord 32 0b11111111100001100000000101111001 = some (.decode4 0x01 0x79) := by decide

/-- R72: `FF 86 hh ll cs` (V8). -/
theorem test_decode_resp5 :
    decodeTableWord 40 0b1111111110000110000000011001000011101001 = some (.decode5 0x01 0x90 0xE9) := by decide

/-- R72: one field after another, all different. -/
theorem test_decode_resp6 : decodeTableWord 48 0xFF8611223344 = some (.decode6 0x11 0x22 0x33 0x44) := by decide

theorem test_decode_resp7 : decodeTableWord 56 0xFF861122334455 = some (.decode7 0x11 0x22 0x33 0x44 0x55) := by decide

theorem test_decode_resp8 : decodeTableWord 64 0xFF86112233445566 = some (.decode8 0x11 0x22 0x33 0x44 0x55 0x66) := by
  decide

theorem test_decode_resp9 :
    decodeTableWord 72 0xFF8611223344556677 = some (.decode9 0x11 0x22 0x33 0x44 0x55 0x66 0x77) := by decide

/-- R77: a wrong byte 1, a wrong byte 0, three bytes, ten bytes. -/
theorem test_decode_rejects :
    decodeFrame [0xFF, 0x87, 0x03, 0xE8, 0, 0, 0, 0, 0x8E] = .error .badHdr ∧
    decodeFrame [0x00, 0x86, 0x03, 0xE8, 0, 0, 0, 0, 0x8F] = .error .badHdr ∧
    decodeFrame [0xFF, 0x86, 0x03] = .error .short ∧
    decodeFrame [0xFF, 0x86, 0, 0, 0, 0, 0, 0, 0, 0] = .error .long := by decide

/-- R25, R81: the codes of SEQ, and that 10 to 15 select nothing. -/
theorem test_decode_seq :
    decodeSeq 0 = [.plStart] ∧ decodeSeq 1 = [.plWait] ∧ decodeSeq 2 = [.plIter] ∧ decodeSeq 3 = [.rdBegin, .plCallx] ∧
    decodeSeq 4 = [.rdTxb, .rdFaultTx] ∧ decodeSeq 5 = [.rdRxb, .rdRxend, .rdFaultRx] ∧
    decodeSeq 6 = [.rdChkok, .rdChkfail] ∧ decodeSeq 7 = [.plCollect] ∧ decodeSeq 8 = [.plTally] ∧
    decodeSeq 9 = [.plHalt] ∧ decodeSeq 10 = [] ∧ decodeSeq 15 = [] := by decide

/-! ## The codec's vectors (95_test_vectors.md section 2.1) -/

/-- B1. -/
theorem test_buildreq :
    after (exec .buildreq base) (·.ret = .frame [0xFF, 0x01, 0x86, 0, 0, 0, 0, 0, 0x79]) = true := by decide

/-- V14: the sum wraps twice. -/
theorem test_chksum_v14 :
    after (exec (.chksum [0xFF, 0x86, 0xFF, 0xFF, 0, 0, 0, 0, 0x7C]) base) (·.ret = .sums 0x84 0x7C) = true := by decide

/-- V10, the source's sample. -/
theorem test_classify_v10 :
    after (exec (.classify [0xFF, 0x86, 0x03, 0xE8, 0, 0, 0, 0, 0x15]) base) (·.ret = .verdict (.badSum 0x71 0x15)) = true := by
  decide

/-- V22: SHORT wins over a wrong header. -/
theorem test_classify_v22 : after (exec (.classify [0xFE, 0x86, 0x03]) base) (·.ret = .verdict .short) = true := by decide

/-- V15: with S = 0 the trailer 00 is valid. -/
theorem test_validate_v15 :
    after (exec (.validate [0xFF, 0x86, 0x7A, 0, 0, 0, 0, 0, 0]) base) (·.ret = .valid true) = true := by decide

/-- V19: the request echoed back. -/
theorem test_validate_v19 :
    after (exec (.validate [0xFF, 0x01, 0x86, 0, 0, 0, 0, 0, 0x79]) base) (·.ret = .valid false) = true := by decide

/-- V6. -/
theorem test_decode4_v6 : after (exec (.decode4 0x01 0x79) base) (·.ret = .reading 377) = true := by decide

/-- V8. -/
theorem test_decode5_v8 : after (exec (.decode5 0x01 0x90 0xE9) base) (·.ret = .reading 400) = true := by decide

/-- V13, cut to six and to seven bytes with the same trailer: the reading is 0. -/
theorem test_decode6 : after (exec (.decode6 0 0 0 0x7A) base) (·.ret = .reading 0) = true := by decide

theorem test_decode7 : after (exec (.decode7 0 0 0 0 0x7A) base) (·.ret = .reading 0) = true := by decide

/-- V27. -/
theorem test_decode8_v27 : after (exec (.decode8 0x02 0x78 0 0 0 0x00) base) (·.ret = .reading 632) = true := by decide

/-- V17: byte 4 is summed, not decoded. -/
theorem test_decode9_v17 : after (exec (.decode9 0x01 0xF4 0x42 0 0 0 0x43) base) (·.ret = .reading 500) = true := by decide

/-! ## The reader's vectors (section 2.2), through the step -/

/-- O1. -/
theorem test_begin :
    after (step { base with seq := sCall, reads := 4, txi := 9, rxlen := 9 })
      (fun t => t.reads = 5 && t.txi = 0 && t.rxlen = 0 && t.seq = sTx && t.out = [.inc .reads]) = true := by decide

/-- O3. -/
theorem test_txb_middle :
    after (step { base with seq := sTx, txi := 2, env := { tx := [.accepted] } })
      (fun t => t.txi = 3 && t.seq = sTx && t.out = [.tx 0x86]) = true := by decide

/-- O4. -/
theorem test_txb_last :
    after (step { base with seq := sTx, txi := 8, env := { tx := [.accepted] } })
      (fun t => t.txi = 9 && t.seq = sRx && t.out = [.tx 0x79]) = true := by decide

/-- O5. -/
theorem test_faultTx :
    after (step { base with seq := sTx, env := { tx := [.fault 5] } })
      (fun t => t.readErrs = 1 && !t.res && t.seq = sCollect && t.out = [.inc .readErrs, .log (.transportFault 5)]) = true := by
  decide

/-- O7. -/
theorem test_rxb :
    after (step { base with seq := sRx, rxlen := 8, env := { rx := [.byte 0x8F] } })
      (fun t => t.rxb[8] = 0x8F && t.rxb[7] = 0 && t.rxlen = 9 && t.seq = sRx && t.out = []) = true := by decide

/-- O8: the channel, which has a fault ready, is not asked. -/
theorem test_rxend_full :
    after (step { base with seq := sRx, rxlen := 9, env := { rx := [.fault 1] } })
      (fun t => t.seq = sCheck && t.env.rx = [.fault 1]) = true := by decide

/-- O10. -/
theorem test_rxend_timeout :
    after (step { base with seq := sRx, rxlen := 5, env := { rx := [.timeout] } })
      (fun t => t.seq = sCheck && t.rxlen = 5 && t.env.rx = []) = true := by decide

/-- O11. -/
theorem test_faultRx :
    after (step { base with seq := sRx, rxlen := 3, readErrs := 7, ppm := 400, env := { rx := [.fault 2] } })
      (fun t => t.readErrs = 8 && t.seq = sCollect && t.rxlen = 3 && t.ppm = 400) = true := by decide

/-- O12. -/
theorem test_chkok :
    after (step (checking 9 v11))
      (fun t => t.ppm = 1000 && t.ppmValid && t.res && t.seq = sCollect && t.out = [.set .co2Ppm 1000]) = true := by decide

/-- O16: the order of the three events. -/
theorem test_chkfail_sum :
    after (step (checking 9 v10))
      (fun t => t.readErrs = 1 && !t.ppmValid &&
        t.out = [.log (.chksumMismatch 0x71 0x15), .inc .readErrs, .log (.readInvalid .badSum 9)]) = true := by decide

/-- O14: nothing received. -/
theorem test_chkfail_short :
    after (step { checking 0 v11 with readErrs := 2, ppm := 400 })
      (fun t => t.readErrs = 3 && t.ppm = 400 && t.out = [.inc .readErrs, .log (.readInvalid .short 0)]) = true := by decide

/-! ## The poll loop's vectors (section 2.3), through the step -/

/-- O20. -/
theorem test_start :
    after (step { State.reset with env := { now := [5000] } })
      (fun t => t.startTime = 5000 && t.seq = sWait && t.out = [.started]) = true := by decide

/-- O21. -/
theorem test_wait_first : after (step { base with seq := sWait }) (·.seq = sIter) = true := by decide

/-- O22, O23. -/
theorem test_wait_later :
    after (step { base with seq := sWait, iter := 3 }) (·.seq = sWait) = true ∧
    after (step { base with seq := sWait, iter := 3, env := { ticks := 1 } }) (·.seq = sIter) = true := by decide

/-- O26: the clock stepped back. -/
theorem test_iter_back :
    after (step { base with seq := sIter, iter := 1, startTime := 5000, env := { now := [4990] } })
      (fun t => t.iter = 2 && t.uptime = 4294967286 && t.out = [.set .uptime 4294967286] && t.seq = sCall) = true := by decide

/-- O27. -/
theorem test_iter_top :
    faults (step { base with seq := sIter, iter := 4294967295 }) (.counterOverflow .iter) = true := by decide

/-- O28, O29. -/
theorem test_callx :
    after (step { base with params := twoReaders, seq := sCall, sidx := 1, res := true, env := { ext := [false] } })
      (fun t => !t.res && t.seq = sCollect) = true ∧
    after (step { base with params := twoReaders, seq := sCall, sidx := 1, env := { ext := [true] } })
      (fun t => t.res && t.seq = sCollect) = true := by decide

/-- O31, O32. -/
theorem test_collect :
    after (step { base with params := twoReaders, seq := sCollect })
      (fun t => !t.allok && t.sidx = 1 && t.seq = sCall) = true ∧
    after (step { base with params := twoReaders, seq := sCollect, allok := false, res := true, sidx := 1 })
      (fun t => !t.allok && t.sidx = 2 && t.seq = sTally) = true := by decide

/-- O33. -/
theorem test_tally_ok :
    after (step { base with seq := sTally, failcnt := 9 }) (fun t => t.failcnt = 0 && t.seq = sWait && t.out = []) = true := by
  decide

/-- O35. -/
theorem test_tally_stop :
    after (step { base with seq := sTally, allok := false, failcnt := 9, iter := 13 })
      (fun t => t.failcnt = 10 && t.seq = sStopped && t.out = [.report 13]) = true := by decide

/-- O37. -/
theorem test_halt :
    after (step { base with seq := sStopped, failcnt := 10, iter := 13 })
      (fun t => t.seq = sStopped && t.failcnt = 10 && t.out = []) = true := by decide

/-- O38. -/
theorem test_reset :
    after (step { base with
        seq := sRx, rxlen := 5, iter := 77, ppm := 400, failcnt := 3, out := [.started], resetReq := true })
      (fun t => t.seq = sStarting && t.rxlen = 0 && t.iter = 0 && t.ppm = 0 && t.failcnt = 0 && t.out = []) = true := by decide

/-- U7, L9. -/
theorem test_refusals :
    refuses (step { base with seq := 10 }) (.badSeq 10) = true ∧
    refuses (step { base with params := { maxFails := 16 } }) .badConfiguration = true ∧
    refuses (step { base with params := { maxFails := 0 } }) .badConfiguration = true := by decide

/-! ## The port primitives on their own (43_ports.md) -/

theorem test_serTx :
    after (exec (.serTx 0x42) { base with env := { tx := [.accepted] } }) (·.out = [.tx 0x42]) = true ∧
    after (exec (.serTx 0x42) { base with env := { tx := [.fault 3] } })
      (fun t => t.out = [] && t.ret = .tx (.fault 3)) = true := by decide

theorem test_serRx :
    after (exec .serRx { base with env := { rx := [.byte 7, .timeout] } })
      (fun t => t.ret = .rx (.byte 7) && t.env.rx = [.timeout] && t.out = []) = true := by decide

theorem test_metricInc :
    after (exec (.metricInc .readErrs) base) (fun t => t.readErrs = 1 && t.reads = 0 && t.out = [.inc .readErrs]) = true ∧
    faults (exec (.metricInc .reads) { base with reads := 4294967295 }) (.counterOverflow .reads) = true := by decide

theorem test_metricSet :
    after (exec (.metricSet .co2Ppm 65535) base) (fun t => t.ppm = 65535 && !t.ppmValid && t.uptime = 0) = true ∧
    after (exec (.metricSet .uptime 60) base) (fun t => t.uptime = 60 && t.out = [.set .uptime 60]) = true := by decide

theorem test_log :
    after (exec (.log (.transportFault 9)) base) (·.out = [.log (.transportFault 9)]) = true := by decide

theorem test_now :
    after (exec .now { base with env := { now := [4294967297] } }) (fun t => t.ret = .time 1 && t.env.now = []) = true := by
  decide

theorem test_intervalWait :
    after (exec .intervalWait { base with env := { ticks := 1 } }) (fun t => t.ret = .tick && t.env.ticks = 0) = true := by
  decide

theorem test_extRefresh :
    after (exec (.extRefresh 0) { base with env := { ext := [true, false] } })
      (fun t => t.ret = .ext true && t.env.ext = [false]) = true := by decide

theorem test_report : after (exec (.report 13) base) (·.out = [.report 13]) = true := by decide

theorem test_emit : after (exec (.emit .started) base) (·.out = [.started]) = true := by decide

/-! ## Placing a table word: the next step runs it from reset -/

theorem test_place_codes :
    after (step (State.reset.withFetchWord 8 0)) (·.seq = sWait) = true ∧
    after (step (State.reset.withFetchWord 8 1)) (·.seq = sIter) = true ∧
    after (step (State.reset.withFetchWord 8 2)) (·.iter = 1) = true ∧
    after (step (State.reset.withFetchWord 8 3)) (·.reads = 1) = true ∧
    after (step (State.reset.withFetchWord 8 4)) (·.out = [.tx 0xFF]) = true ∧
    after (step (State.reset.withFetchWord 8 5)) (·.rxlen = 1) = true := by decide

theorem test_place_codes_later :
    after (step (State.reset.withFetchWord 8 6)) (·.ppm = 122) = true ∧
    after (step (State.reset.withFetchWord 8 7)) (·.sidx = 1) = true ∧
    after (step (State.reset.withFetchWord 8 9)) (·.seq = sStopped) = true := by decide

/-- The codec's words, through the operations that invoke its functions (R82): RD.TXB sends the request's first byte, RD.CHKOK
publishes what DECODE gives (V5), RD.CHKFAIL logs what CHKSUM gives, here for frames with a trailer 00. -/
theorem test_place_frames :
    after (step (State.reset.withFetchWord 72 0xFF0186000000000079)) (·.out = [.tx 0xFF]) = true ∧
    after (step (State.reset.withFetchWord 32 0xFF86007A)) (·.ppm = 122) = true ∧
    after (step (State.reset.withFetchWord 32 0xFF860000)) (·.out.head? = some (.log (.chksumMismatch 0x86 0))) = true ∧
    after (step (State.reset.withFetchWord 16 0xFF86)) (·.out.head? = some (.log (.chksumMismatch 0x86 0))) = true := by decide

/-! ## Witnesses: for every obligation with hypotheses, a state and operands that meet them, clause by clause -/

/-- A channel that takes nine bytes and delivers V11, before a refresh. -/
def fullChannel : State :=
  { base with
    seq := sCall, iter := 1
    env := { tx := List.replicate 9 .accepted ++ [.fault 1], rx := v11.toList.map .byte ++ [.timeout] } }

/-- In S_TX at index `i`, in S_RX at index `i`, each with the answers given. -/
def sending (i : Index) (a : List TxAnswer) : State := { base with seq := sTx, txi := i, env := { tx := a } }
def receiving (i : Index) (a : List RxAnswer) : State := { base with seq := sRx, rxlen := i, env := { rx := a } }

theorem wit_FrameRoundTrip : encode (.decode4 0 0x7A) = .frame [0xFF, 0x86, 0x00, 0x7A] := by decide

theorem wit_DecodedFrameEncodes : decodeFrame [0xFF, 0x86, 0xFF, 0xFF, 0xFF] = .ok (.decode5 0xFF 0xFF 0xFF) := by decide

theorem wit_OtherFramesRejected :
    ([0xFF, 0x86, 0x00] : Frame) ≠ Config.req ∧ ([0xFF, 0x86, 0x00] : Frame).length < 4 ∧
    ([0xFF, 0x01, 0x86, 0] : Frame) ≠ Config.req ∧ 4 ≤ ([0xFF, 0x01, 0x86, 0] : Frame).length ∧
    ([0xFF, 0x01, 0x86, 0] : Frame)[1]? ≠ some 0x86 ∧
    List.replicate 10 (0 : Byte) ≠ Config.req ∧ 9 < (List.replicate 10 (0 : Byte)).length := by decide

theorem wit_Chksum : 2 ≤ ([0xFF, 0x86] : Frame).length ∧ ([0xFF] : Frame).length < 2 := by decide

theorem wit_ExactlyOneTrailerIsValid : 1 ≤ ([0x7A] : Frame).length := by decide

theorem wit_DecodeReturnsTheReading :
    validateFrame [0xFF, 0x86, 0x00, 0x7A] = true ∧ validateFrame [0xFF, 0x86, 0xFF, 0xFF, 0x7C] = true ∧
    validateFrame [0xFF, 0x86, 0, 0, 0, 0x7A] = true ∧ validateFrame [0xFF, 0x86, 0, 0, 0, 0, 0x7A] = true ∧
    validateFrame [0xFF, 0x86, 0x02, 0x78, 0, 0, 0, 0x00] = true ∧
    validateFrame [0xFF, 0x86, 0x03, 0xE8, 0, 0, 0, 0, 0x8F] = true := by decide

theorem wit_DecodeOfAnInvalidFrameFaults :
    validateFrame [0xFF, 0x86, 0x00, 0x7B] = false ∧ validateFrame [0xFF, 0x86, 0x01, 0xF4, 0x42] = false ∧
    validateFrame [0xFF, 0x86, 0, 0, 0, 0] = false ∧ validateFrame [0xFF, 0x86, 0x03, 0xE8, 0, 0, 0] = false ∧
    validateFrame [0xFF, 0x86, 0x03, 0xE8, 0, 0, 0, 0] = false ∧
    validateFrame [0xFF, 0x86, 0x03, 0xE8, 0, 0, 0, 0, 0x15] = false := by decide

theorem wit_FourByteReadingIsForced : after (exec (.decode4 0xFF 0x7B) base) (fun _ => true) = true := by decide

theorem wit_StartCapturesTheTime :
    (∃ s : State, s.seq = sStarting ∧ s.env.now = 5000 :: []) ∧ (∃ s : State, s.seq = sStarting ∧ s.env.now = []) :=
  ⟨⟨{ base with env := { now := [5000] } }, by decide⟩, ⟨base, by decide⟩⟩

theorem wit_WaitEndsWithTheInterval :
    (∃ s : State, s.seq = sWait ∧ s.iter = 0) ∧ (∃ s : State, s.seq = sWait ∧ s.iter ≠ 0 ∧ s.env.ticks = 0 + 1) :=
  ⟨⟨{ base with seq := sWait }, by decide⟩, ⟨{ base with seq := sWait, iter := 1, env := { ticks := 1 } }, by decide⟩⟩

/-- PL.ITER one below the top of ITER, with and without an answer, and at the top. -/
theorem wit_Iter :
    (∃ s : State, s.seq = sIter ∧ s.iter + 1 < 2 ^ s.params.iterW ∧ s.env.now = 5 :: []) ∧
    (∃ s : State, s.seq = sIter ∧ s.iter + 1 < 2 ^ s.params.iterW ∧ s.env.now = []) ∧
    (∃ s : State, s.seq = sIter ∧ s.iter = 2 ^ s.params.iterW - 1) :=
  ⟨⟨{ base with seq := sIter, iter := 2 ^ 32 - 2, env := { now := [5] } }, by decide⟩,
    ⟨{ base with seq := sIter, iter := 2 ^ 32 - 2 }, by decide⟩, ⟨{ base with seq := sIter, iter := 2 ^ 32 - 1 }, by decide⟩⟩

theorem wit_CallxTakesTheResult :
    ∃ s : State, s.seq = sCall ∧ s.params.readers[s.sidx]? = some (.ext 0) ∧ s.env.ext = true :: [] :=
  ⟨{ base with params := twoReaders, seq := sCall, sidx := 1, env := { ext := [true] } }, by decide⟩

/-- The three outcomes, the last two on both sides of the threshold. -/
theorem wit_TallyCountsAndStops :
    (∃ s : State, s.seq = sTally ∧ 1 ≤ s.params.maxFails ∧ s.allok = true) ∧
    (∃ s : State, s.seq = sTally ∧ 1 ≤ s.params.maxFails ∧ s.allok = false ∧ s.failcnt + 1 ≠ s.params.maxFails) ∧
    (∃ s : State, s.seq = sTally ∧ 1 ≤ s.params.maxFails ∧ s.allok = false ∧ s.failcnt + 1 = s.params.maxFails) :=
  ⟨⟨{ base with seq := sTally, failcnt := 9 }, by decide⟩, ⟨{ base with seq := sTally, allok := false, failcnt := 8 }, by decide⟩,
    ⟨{ base with seq := sTally, allok := false, failcnt := 9 }, by decide⟩⟩

theorem wit_StoppedIsTerminal : ∃ s : State, s.seq = sStopped ∧ s.resetReq = false ∧ s.params.legal = true :=
  ⟨{ base with seq := sStopped }, by decide⟩

/-- RD.BEGIN one below the top of READS, and at it. -/
theorem wit_Begin :
    (∃ s : State, s.seq = sCall ∧ s.params.readers[s.sidx]? = some .carbon ∧ s.reads + 1 < 2 ^ s.params.cntW) ∧
    (∃ s : State, s.seq = sCall ∧ s.params.readers[s.sidx]? = some .carbon ∧ s.reads = 2 ^ s.params.cntW - 1) :=
  ⟨⟨{ base with seq := sCall, reads := 2 ^ 32 - 2 }, by decide⟩, ⟨{ base with seq := sCall, reads := 2 ^ 32 - 1 }, by decide⟩⟩

/-- The last index of the request. -/
theorem wit_TxbSendsTheNextRequestByte : ∃ s : State, s.seq = sTx ∧ s.txi < 9#4 ∧ s.env.tx = .accepted :: [] :=
  ⟨sending 8 [.accepted], by decide⟩

theorem wit_RxbStoresTheByteAtRxlen : ∃ s : State, s.seq = sRx ∧ s.rxlen < 9#4 ∧ s.env.rx = .byte 7 :: [] :=
  ⟨receiving 8 [.byte 7], by decide⟩

theorem wit_RxendEndsTheCollection :
    (∃ s : State, s.seq = sRx ∧ s.rxlen = 9#4) ∧
    (∃ s : State, s.seq = sRx ∧ s.rxlen < 9#4 ∧ s.env.rx = .timeout :: []) :=
  ⟨⟨receiving 9 [], by decide⟩, ⟨receiving 8 [.timeout], by decide⟩⟩

/-- The two rows of RD.FAULT at the last index, READ_ERRS one below its top. -/
theorem wit_TransportFaultFailsTheRefresh :
    (∃ s : State, s.readErrs + 1 < 2 ^ s.params.cntW ∧ s.seq = sTx ∧ s.txi < 9#4 ∧ s.env.tx = .fault 1 :: []) ∧
    (∃ s : State, s.readErrs + 1 < 2 ^ s.params.cntW ∧ s.seq = sRx ∧ s.rxlen < 9#4 ∧ s.env.rx = .fault 1 :: []) :=
  ⟨⟨{ sending 8 [.fault 1] with readErrs := 2 ^ 32 - 2 }, by decide⟩,
    ⟨{ receiving 8 [.fault 1] with readErrs := 2 ^ 32 - 2 }, by decide⟩⟩

/-- READ_ERRS at its top, for the three operations that count it. -/
theorem wit_CountersAtTheTopFault :
    (∃ s : State, s.seq = sTx ∧ s.txi < 9#4 ∧ s.env.tx = .fault 1 :: [] ∧ s.readErrs = 2 ^ s.params.cntW - 1) ∧
    (∃ s : State, s.seq = sRx ∧ s.rxlen < 9#4 ∧ s.env.rx = .fault 1 :: [] ∧ s.readErrs = 2 ^ s.params.cntW - 1) ∧
    (∃ s : State, s.seq = sCheck ∧ s.rxlen ≤ 9#4 ∧ classifyFrame (s.rxb.toList.take s.rxlen.toNat) ≠ .ok ∧
      s.readErrs = 2 ^ s.params.cntW - 1) :=
  ⟨⟨{ sending 8 [.fault 1] with readErrs := 2 ^ 32 - 1 }, by decide⟩,
    ⟨{ receiving 8 [.fault 1] with readErrs := 2 ^ 32 - 1 }, by decide⟩,
    ⟨{ checking 9 v10 with readErrs := 2 ^ 32 - 1 }, by decide⟩⟩

/-- A valid response of nine bytes and one of four. -/
theorem wit_ChkokPublishesTheReading :
    (∃ s : State, s.seq = sCheck ∧ s.rxlen = 9#4 ∧ classifyFrame (s.rxb.toList.take s.rxlen.toNat) = .ok) ∧
    (∃ s : State, s.seq = sCheck ∧ s.rxlen = 4#4 ∧ classifyFrame (s.rxb.toList.take s.rxlen.toNat) = .ok) :=
  ⟨⟨checking 9 v11, by decide⟩, ⟨checking 4 v5, by decide⟩⟩

/-- The three causes, the first at the greatest short length, READ_ERRS one below its top. -/
theorem wit_ChkfailCountsAndLogs :
    (∃ s : State, s.seq = sCheck ∧ s.rxlen ≤ 9#4 ∧ s.readErrs + 1 < 2 ^ s.params.cntW ∧
      classifyFrame (s.rxb.toList.take s.rxlen.toNat) = .short) ∧
    (∃ s : State, s.seq = sCheck ∧ s.rxlen ≤ 9#4 ∧ s.readErrs + 1 < 2 ^ s.params.cntW ∧
      classifyFrame (s.rxb.toList.take s.rxlen.toNat) = .badHdr) ∧
    (∃ s : State, s.seq = sCheck ∧ s.rxlen ≤ 9#4 ∧ s.readErrs + 1 < 2 ^ s.params.cntW ∧
      classifyFrame (s.rxb.toList.take s.rxlen.toNat) = .badSum 0x71 0x15) :=
  ⟨⟨{ checking 3 v11 with readErrs := 2 ^ 32 - 2 }, by decide⟩, ⟨{ checking 9 v19 with readErrs := 2 ^ 32 - 2 }, by decide⟩,
    ⟨{ checking 9 v10 with readErrs := 2 ^ 32 - 2 }, by decide⟩⟩

theorem wit_UnselectedOperationIsRefused : encode .rdTxb = .seq 4 ∧ enabled .rdTxb (sending 9 [.accepted]) = false := by
  decide

theorem wit_CollectRecordsTheResult : ∃ s : State, s.seq = sCollect := ⟨{ base with seq := sCollect }, by decide⟩

/-- Both counters one below the top, and at it. -/
theorem wit_MetricIncAddsOneOrFaults :
    (∃ s : State, s.reads + 1 < 2 ^ s.params.cntW ∧ s.readErrs + 1 < 2 ^ s.params.cntW) ∧
    (∃ s : State, s.reads = 2 ^ s.params.cntW - 1 ∧ s.readErrs = 2 ^ s.params.cntW - 1) :=
  ⟨⟨{ base with reads := 2 ^ 32 - 2, readErrs := 2 ^ 32 - 2 }, by decide⟩,
    ⟨{ base with reads := 2 ^ 32 - 1, readErrs := 2 ^ 32 - 1 }, by decide⟩⟩

theorem wit_MetricSetOverwritesTheGauge : 2 ^ 32 - 1 < 2 ^ base.params.timeW ∧ 65535 < 2 ^ 16 := by decide

theorem wit_SerialPrimitives :
    (sending 0 [.accepted]).env.tx = .accepted :: [] ∧ (sending 0 [.fault 1]).env.tx = .fault 1 :: [] ∧
    (receiving 0 [.timeout]).env.rx = .timeout :: [] ∧ base.env.tx = [] ∧ base.env.rx = [] := by decide

theorem wit_TimePrimitives :
    ({ base with env := { now := [1] } } : State).env.now = 1 :: [] ∧ base.env.now = [] ∧
    ({ base with env := { ticks := 1 } } : State).env.ticks = 0 + 1 ∧ base.env.ticks = 0 ∧
    ({ base with env := { ext := [false] } } : State).env.ext = false :: [] ∧ base.env.ext = [] := by decide

theorem wit_StepRunsTheSelectedOperation :
    base.resetReq = false ∧ base.params.legal = true ∧ encode .plStart = .seq base.seq ∧ enabled .plStart base = true ∧
    ({ base with resetReq := true } : State).resetReq = true := by decide

/-- Each row of the table is selected somewhere, at the boundary of its condition. -/
theorem wit_SelectionTable_poll :
    enabled .plWait { base with seq := sWait } = true ∧
    enabled .plWait { base with seq := sWait, iter := 1, env := { ticks := 1 } } = true ∧
    enabled .plIter { base with seq := sIter } = true ∧
    enabled .plCallx { base with params := twoReaders, seq := sCall, sidx := 1, env := { ext := [true] } } = true ∧
    enabled .plCollect { base with seq := sCollect } = true ∧ enabled .plTally { base with seq := sTally } = true ∧
    enabled .plHalt { base with seq := sStopped } = true := by decide

theorem wit_SelectionTable_reader :
    enabled .rdBegin { base with seq := sCall } = true ∧ enabled .rdTxb (sending 8 [.accepted]) = true ∧
    enabled .rdFaultTx (sending 8 [.fault 1]) = true ∧ enabled .rdRxb (receiving 8 [.byte 1]) = true ∧
    enabled .rdRxend (receiving 8 [.timeout]) = true ∧ enabled .rdFaultRx (receiving 8 [.fault 1]) = true ∧
    enabled .rdRxend (receiving 9 []) = true ∧ enabled .rdChkok (checking 9 v11) = true ∧
    enabled .rdChkfail (checking 9 v10) = true ∧ enabled .rdChkfail (checking 0 v11) = true := by decide

theorem wit_HeldUntilThePortAnswers :
    (∃ s : State, s.resetReq = false ∧ s.params.legal = true ∧ s.seq = sWait ∧ s.iter ≠ 0 ∧ s.env.ticks = 0) ∧
    (∃ s : State, s.resetReq = false ∧ s.params.legal = true ∧ s.seq = sCall ∧
      s.params.readers[s.sidx]? = some (.ext 0) ∧ s.env.ext = []) ∧
    (∃ s : State, s.resetReq = false ∧ s.params.legal = true ∧ s.seq = sTx ∧ s.txi < 9#4 ∧ s.env.tx = []) ∧
    (∃ s : State, s.resetReq = false ∧ s.params.legal = true ∧ s.seq = sRx ∧ s.rxlen < 9#4 ∧ s.env.rx = []) :=
  ⟨⟨{ base with seq := sWait, iter := 1 }, by decide⟩, ⟨{ base with params := twoReaders, seq := sCall, sidx := 1 }, by decide⟩,
    ⟨sending 8 [], by decide⟩, ⟨receiving 8 [], by decide⟩⟩

/-- Each index at the first illegal value. -/
theorem wit_StepRefusesWhatIsOutsideTheModel :
    (∃ s : State, s.resetReq = false ∧ s.params.legal = false) ∧
    (∃ s : State, s.resetReq = false ∧ s.params.legal = true ∧ sStopped < s.seq) ∧
    (∃ s : State, s.resetReq = false ∧ s.params.legal = true ∧ s.seq = sCall ∧ s.params.readers.length ≤ s.sidx) ∧
    (∃ s : State, s.resetReq = false ∧ s.params.legal = true ∧ s.seq = sTx ∧ 9#4 ≤ s.txi) ∧
    (∃ s : State, s.resetReq = false ∧ s.params.legal = true ∧ s.seq = sRx ∧ 9#4 < s.rxlen) ∧
    (∃ s : State, s.resetReq = false ∧ s.params.legal = true ∧ s.seq = sCheck ∧ 9#4 < s.rxlen) :=
  ⟨⟨{ base with params := { readers := [] } }, by decide⟩, ⟨{ base with seq := 10 }, by decide⟩,
    ⟨{ base with seq := sCall, sidx := 1 }, by decide⟩, ⟨sending 9 [], by decide⟩, ⟨receiving 10 [], by decide⟩,
    ⟨checking 10 v11, by decide⟩⟩

/-- The smallest counters and threshold. -/
theorem wit_FourOperationsBeforeTheFirstByte :
    (Params.legal { maxFails := 1, iterW := 1, cntW := 1, failW := 1 }) = true ∧
    (Params.legal {}) = true ∧ ([.carbon] : List Reader)[0]? = some .carbon := by decide

theorem wit_CodecFrame :
    isCodec (.validate []) = true ∧ after (exec (.validate []) base) (fun _ => true) = true := by decide

theorem wit_ResetAtAnyTime : ∃ s : State, s.resetReq = true ∧ s.seq = 15 :=
  ⟨{ base with seq := 15, resetReq := true }, by decide⟩

/-- Every operation of the two frames completes somewhere (the tests above), and so does a step. -/
theorem wit_StepLaws : after (step base) (fun t => t.params.maxFails = 10) = true ∧ base.resetReq = false := by decide

theorem wit_EveryRefreshEnds :
    after (exec .rdBegin { base with seq := sCall }) (fun t => refreshLeft t = 20) = true ∧
    inRefresh (sending 8 [.accepted]) = true ∧ after (step (sending 8 [.accepted])) (refreshLeft · = 11) = true ∧
    inRefresh (receiving 8 []) = true ∧ after (step (receiving 8 [])) held = true ∧
    inRefresh (checking 9 v11) = true ∧ after (step (checking 9 v11)) (·.seq = sCollect) = true := by decide

theorem wit_WholeRefreshTransfersTheFrames :
    fullChannel.resetReq = false ∧ fullChannel.params.legal = true ∧ fullChannel.seq = sCall ∧
    fullChannel.params.readers[fullChannel.sidx]? = some .carbon ∧
    fullChannel.reads + 1 < 2 ^ fullChannel.params.cntW ∧
    fullChannel.env.tx = List.replicate 9 .accepted ++ [.fault 1] ∧
    fullChannel.env.rx = v11.toList.map .byte ++ [.timeout] := by decide

/-- The source's example: three successes, then ten failures, the last of which reaches the threshold (E6). -/
theorem wit_FailcntIsTheFailedSuffix :
    base.failcnt = 0 ∧ 1 ≤ base.params.maxFails ∧
    (∀ k, k < (List.replicate 3 true ++ List.replicate 10 false).length →
      failSuffix ((List.replicate 3 true ++ List.replicate 10 false).take k) ≠ base.params.maxFails) ∧
    failSuffix (List.replicate 3 true ++ List.replicate 10 false) = base.params.maxFails := by decide

theorem wit_MetricRegistersAreWriteOnly :
    (2 ^ 32 - 2) + 1 < 2 ^ base.params.cntW ∧ after (step base) (fun _ => true) = true := by decide

/-- Two different states after reset that hold the same values. -/
theorem wit_UnwrittenElementsAreNeverRead :
    SameWritten base { base with startTime := 7, allok := false, res := true, rxb := v11 } where
  rest := rfl
  startTime h := absurd rfl h
  allok h := absurd h (by decide)
  res h := absurd h (by decide)
  rxb i h := absurd h (Nat.not_lt_zero i)

/-- A good state in the middle of a run: the second iteration is about to read. -/
theorem wit_Inv : Inv { base with seq := sCall, iter := 2, reads := 1, failcnt := 1, readErrs := 1 } := by
  constructor <;> decide

end Sys2Proof.Tests
end

/-! PROOFS. The codec (40_codec.md R90 to R96). First the checksum's arithmetic against the unbounded sums of Safety, then
what each codec instruction does in terms of its pure function, then the obligations. -/

namespace Sys2Proof.Machine

/-! ## The checksum's arithmetic -/

/-- The model's running sum modulo 256 is the unbounded sum reduced once (R92, R97 a). -/
theorem frameSum_eq_ofNat_innerSum (r : Frame) : frameSum r = BitVec.ofNat 8 (innerSum r % 256) := by
  have hfold : frameSum r = 0 + BitVec.ofNat 8 (innerSum r) := by
    simpa [frameSum, innerSum] using foldl_add_toNat (r.tail.dropLast) 0
  apply BitVec.eq_of_toNat_eq
  simp [hfold]

theorem frameSum_toNat (r : Frame) : (frameSum r).toNat = innerSum r % 256 := by
  simp [frameSum_eq_ofNat_innerSum]

theorem frameTrailer_toNat (r : Frame) : (frameTrailer r).toNat = trailerNat r := rfl

/-- The condition `(S + T) mod 256 = 0` on numbers is the model's test on bytes (R75). -/
theorem sumOk_iff_mod (r : Frame) : sumOk r = true ↔ (innerSum r % 256 + trailerNat r) % 256 = 0 := by
  rw [sumOk_iff, ← BitVec.toNat_inj, BitVec.toNat_add, frameSum_toNat, frameTrailer_toNat]
  rfl

/-! ## The codec's functions on numbers -/

/-- CLASSIFY's tests in the order of R93, its sum taken without bound. -/
theorem classifyFrame_eq (r : Frame) : classifyFrame r =
    if r.length < 4 then .short
    else if r[0]? ≠ some 0xFF ∨ r[1]? ≠ some 0x86 then .badHdr
    else if (innerSum r % 256 + trailerNat r) % 256 ≠ 0 then
      .badSum (BitVec.ofNat 8 (innerSum r % 256)) (r.getLastD 0)
    else .ok := by
  have hheader : (!headerOk r) = true ↔ r[0]? ≠ some 0xFF ∨ r[1]? ≠ some 0x86 := by
    rw [Bool.not_eq_true', ← Bool.not_eq_true, headerOk_iff, not_and_or]
    rfl
  have hsum : (!sumOk r) = true ↔ (innerSum r % 256 + trailerNat r) % 256 ≠ 0 := by
    rw [Bool.not_eq_true', ← Bool.not_eq_true, sumOk_iff_mod]
  simp only [classifyFrame, hheader, hsum, frameSum_eq_ofNat_innerSum]
  rfl

/-- The valid sequences: four bytes or more, the marker pair, and the checksum condition (R94). -/
theorem validateFrame_iff_tests (r : Frame) : validateFrame r = true ↔
    4 ≤ r.length ∧ r[0]? = some 0xFF ∧ r[1]? = some 0x86 ∧ (innerSum r % 256 + trailerNat r) % 256 = 0 := by
  rw [validateFrame_iff, classifyFrame_ok_iff, headerOk_iff, sumOk_iff_mod, and_assoc]
  rfl

/-- The 16-bit assembly is the number byte 2 times 256 plus byte 3 (R74, R96). -/
theorem assembleReading_eq_ofNat (r : Frame) :
    assembleReading r = BitVec.ofNat 16 ((r.getD 2 0).toNat * 256 + (r.getD 3 0).toNat) := by
  simp [assembleReading, BitVec.ofNat_add, BitVec.ofNat_mul]

theorem decodeReading_of_valid {r : Frame} (hvalid : validateFrame r = true) :
    decodeReading r = some (BitVec.ofNat 16 ((r.getD 2 0).toNat * 256 + (r.getD 3 0).toNat)) :=
  decodeReading_eq_some.mpr ⟨hvalid, assembleReading_eq_ofNat r⟩

/-! ## What each codec instruction does -/

theorem exec_buildreq (s : State) : exec .buildreq s = .next { s with ret := .frame buildRequest } := rfl

theorem exec_classify (r : Frame) (s : State) :
    exec (.classify r) s = .next { s with ret := .verdict (classifyFrame r) } := rfl

theorem exec_validate (r : Frame) (s : State) :
    exec (.validate r) s = .next { s with ret := .valid (validateFrame r) } := rfl

theorem exec_chksum_of_two_le {r : Frame} (hlen : 2 ≤ r.length) (s : State) :
    exec (.chksum r) s = .next { s with ret := .sums (frameSum r) (frameTrailer r) } := by
  have hsum : checksum r = some (frameSum r, frameTrailer r) := if_neg (by omega)
  change execChksum r s = _
  rw [execChksum, hsum]
  rfl

/-- DECODE of a valid response, of any length: bytes 2 and 3 of the frame are the first two after the header. -/
theorem decodeOf_of_valid (body : Frame) (s : State) (hvalid : validateFrame (respFrame body) = true) :
    decodeOf body s = .next { s with
      ret := .reading (BitVec.ofNat 16 ((body.getD 0 0).toNat * 256 + (body.getD 1 0).toNat)) } := by
  rw [decodeOf, decodeReading_of_valid hvalid]
  rfl

/-! ## The obligations -/

/-- Settles O7: the instruction returns the model's running sum, which is the unbounded sum reduced once. -/
theorem chksumReturnsSumAndTrailer : Obligations.ChksumReturnsSumAndTrailer := by
  intro s r hlen
  rw [exec_chksum_of_two_le hlen, frameSum_eq_ofNat_innerSum]
  rfl

/-- Settles O9. -/
theorem classifyTestsInOrder : Obligations.ClassifyTestsInOrder := by
  intro s r
  rw [exec_classify, classifyFrame_eq]

/-- Settles O10: the boolean is the one VALIDATE's function computes. -/
theorem validateAcceptsExactlyTheValidFrames : Obligations.ValidateAcceptsExactlyTheValidFrames :=
  fun s r => ⟨validateFrame r, exec_validate r s, validateFrame_iff_tests r⟩

/-- Settles O12: every form is DECODE of its bytes after the header, so one lemma serves the six. -/
theorem decodeReturnsTheReading : Obligations.DecodeReturnsTheReading :=
  ⟨fun _ => decodeReading_of_valid, fun s h l a b c d cs =>
    ⟨decodeOf_of_valid [h, cs] s, decodeOf_of_valid [h, l, cs] s, decodeOf_of_valid [h, l, a, cs] s,
      decodeOf_of_valid [h, l, a, b, cs] s, decodeOf_of_valid [h, l, a, b, c, cs] s,
      decodeOf_of_valid [h, l, a, b, c, d, cs] s⟩⟩

/-- Settles O6: the function's constant is the request of R90. -/
theorem buildreqReturnsTheConstantRequest : Obligations.BuildreqReturnsTheConstantRequest :=
  exec_buildreq

end Sys2Proof.Machine

/-! PROOFS. The reader's check of a response (41_reader.md R116): what RESP holds, then the obligation. -/

namespace Sys2Proof.Machine

variable {s : State}

/-- The verdict on RESP is CLASSIFY's on the received bytes, at every legal RXLEN. -/
theorem respVerdict_of_rxlen_le (hlen : s.rxlen ≤ 9#4) :
    respVerdict s = some (classifyFrame (s.rxb.toList.take s.rxlen.toNat)) := by
  rw [respVerdict, (resp_some hlen).1]
  rfl

/-- A byte of the received frame is the buffer's byte at the same index. -/
theorem received_getD (n i : Nat) (hn : i < n) (h9 : i < 9) : (s.rxb.toList.take n).getD i 0 = s.rxb[i] := by
  simp [List.getD_eq_getElem?_getD, hn, h9]

/-- DECODE(RESP) of a valid response: RXB[2] and RXB[3] are received bytes, a valid frame having four or more. -/
theorem resp_bind_decodeReading_of_ok (hlen : s.rxlen ≤ 9#4)
    (hok : classifyFrame (s.rxb.toList.take s.rxlen.toNat) = .ok) :
    (resp s).bind decodeReading = some (BitVec.ofNat 16 (s.rxb[2].toNat * 256 + s.rxb[3].toNat)) := by
  obtain ⟨hresp, hcount⟩ := resp_some hlen
  have hvalid := (validateFrame_iff _).mpr hok
  have hfour : 4 ≤ s.rxlen.toNat := hcount ▸ ((validateFrame_iff_tests _).mp hvalid).1
  rw [hresp, Option.bind_some, decodeReading_of_valid hvalid, received_getD _ 2 (by omega) (by omega),
    received_getD _ 3 (by omega) (by omega)]

/-- Two bytes make a number of 16 bits, so a reading loses nothing in the gauge's width. -/
theorem toNat_ofNat_twoBytes (a b : Byte) :
    (BitVec.ofNat 16 (a.toNat * 256 + b.toNat)).toNat = a.toNat * 256 + b.toNat := by
  rw [BitVec.toNat_ofNat]
  omega

/-- RD.CHKOK where it is selected and DECODE(RESP) answers (R116). -/
theorem exec_rdChkok_of_reading {v : Reading} (hsel : enabled .rdChkok s = true)
    (hread : (resp s).bind decodeReading = some v) :
    exec .rdChkok s = .next { s with
      ppm := v, out := s.out ++ [.set .co2Ppm v.toNat], ppmValid := true, res := true, seq := sCollect } := by
  have hgauge : v.toNat % 2 ^ 16 = v.toNat := Nat.mod_eq_of_lt v.isLt
  rw [exec, execRdChkok, guarded_enabled hsel, hread]
  simp only [metricSet_co2Ppm, hgauge, BitVec.ofNat_toNat, BitVec.setWidth_eq]
  rfl

/-- Settles O27: the response is valid, so RD.CHKOK is selected and DECODE answers with bytes 2 and 3 of the buffer. -/
theorem chkokPublishesTheReading : Obligations.ChkokPublishesTheReading := by
  intro s hseq hlen hok
  have hsel : enabled .rdChkok s = true :=
    enabled_rdChkok.mpr ⟨hseq, (respVerdict_of_rxlen_le hlen).trans (congrArg some hok)⟩
  rw [exec_rdChkok_of_reading hsel (resp_bind_decodeReading_of_ok hlen hok), toNat_ofNat_twoBytes]

end Sys2Proof.Machine

/-! PROOFS. The poll loop's end of a refresh and of an iteration (42_pollloop.md R135, R136): what each operation answers where
it is selected, then the obligations. -/

namespace Sys2Proof.Machine

variable {s : State}

/-- PL.COLLECT where it is selected (R135). -/
theorem exec_plCollect_of_seq (hseq : s.seq = sCollect) :
    exec .plCollect s = .next { s with
      allok := s.allok && s.res, sidx := s.sidx + 1
      seq := if s.sidx + 1 = s.params.nReaders then sTally else sCall } := by
  rw [exec, execPlCollect, guarded_enabled (enabled_plCollect.mpr hseq)]
  rfl

theorem tallied_of_allok (hok : s.allok = true) : tallied s = 0 := if_pos hok

theorem tallied_of_not_allok (hfail : s.allok = false) : tallied s = s.failcnt + 1 := by simp [tallied, hfail]

/-- PL.TALLY where it is selected, the new count not at the threshold (R136). -/
theorem exec_plTally_of_ne (hseq : s.seq = sTally) (hne : tallied s ≠ s.params.maxFails) :
    exec .plTally s = .next { s with failcnt := tallied s, seq := sWait } := by
  rw [exec, execPlTally, guarded_enabled (enabled_plTally.mpr hseq), if_neg hne]
  rfl

/-- PL.TALLY where it is selected, the new count at the threshold (R136). -/
theorem exec_plTally_of_eq (hseq : s.seq = sTally) (hstop : tallied s = s.params.maxFails) :
    exec .plTally s = .next { s with
      failcnt := tallied s, out := s.out ++ [.report s.iter], seq := sStopped } := by
  rw [exec, execPlTally, guarded_enabled (enabled_plTally.mpr hseq), if_pos hstop]
  rfl

/-- Settles O20: after a success the count is 0, which a threshold of at least 1 is not; after a failure it is FAILCNT + 1,
and the comparison with the threshold decides. -/
theorem tallyCountsAndStops : Obligations.TallyCountsAndStops := by
  intro s hseq hmax
  refine ⟨fun hok => ?success, fun hfail hne => ?below, fun hfail hstop => ?threshold⟩
  case success =>
    have hzero := tallied_of_allok hok
    rw [exec_plTally_of_ne hseq (by omega), hzero]
  case below =>
    have hcount := tallied_of_not_allok hfail
    rw [exec_plTally_of_ne hseq (hcount ▸ hne), hcount]
  case threshold =>
    have hcount := tallied_of_not_allok hfail
    rw [exec_plTally_of_eq hseq (hcount.trans hstop), hcount]

/-- Settles O19: NREADERS is the number of READERS (R6). -/
theorem collectRecordsTheResult : Obligations.CollectRecordsTheResult :=
  fun _ => exec_plCollect_of_seq

end Sys2Proof.Machine

/-! PROOFS. The encoding (30_encoding.md): what the decoder answers on a response, what it accepts, then the obligations. -/

namespace Sys2Proof

/-! ## The decoder -/

/-- A response's header is not the request's, so a response of four bytes or more is read by its body (R70, R72). -/
theorem decodeFrame_response {body : Frame} (hlen : 2 ≤ body.length) :
    decodeFrame (Config.hdr0 :: Config.hdr1 :: body) = decodeBody body := by
  have hne : Config.hdr0 :: Config.hdr1 :: body ≠ Config.req := by simp [Config.req, Config.hdr1]
  rw [decodeFrame_cons hne, if_neg (by omega), if_pos ⟨rfl, rfl⟩]

/-- What the decoder accepts: the request, and the responses whose body has a form. -/
theorem decodeFrame_ok_cases {f : Frame} {i : Instr} (h : decodeFrame f = .ok i) :
    (f = Config.req ∧ i = .buildreq) ∨
    ∃ body, f = Config.hdr0 :: Config.hdr1 :: body ∧ decodeBody body = .ok i := by
  by_cases hreq : f = Config.req
  · subst hreq
    cases decodeFrame_req.symm.trans h
    exact .inl ⟨rfl, rfl⟩
  · right
    match f with
    | [] | [_] => simp [decodeFrame, hreq] at h
    | a :: b :: body =>
      rw [decodeFrame_cons hreq] at h
      split_ifs at h with hshort hheader hlong
      exact ⟨body, by rw [hheader.1, hheader.2], h⟩

/-- The form of a body holds the body's own bytes, all of them (R72). -/
theorem encode_of_decodeBody {body : Frame} {i : Instr} (h : decodeBody body = .ok i) :
    encode i = .frame (Config.hdr0 :: Config.hdr1 :: body) := by
  match body with
  | [] | [_] => cases h
  | [_, _] | [_, _, _] | [_, _, _, _] | [_, _, _, _, _] | [_, _, _, _, _, _] | [_, _, _, _, _, _, _] =>
    cases h
    rfl
  | _ :: _ :: _ :: _ :: _ :: _ :: _ :: _ :: _ => cases h

/-! ## The obligations -/

/-- Settles O2: the instructions with a wire frame are BUILDREQ and the six DECODE forms; a form's frame is a response,
which is read by its body. -/
theorem frameRoundTrip : Obligations.FrameRoundTrip := by
  intro i f h
  cases i with
  | buildreq => cases h; exact decodeFrame_req
  | decode4 => cases h; exact decodeFrame_response (by simp)
  | decode5 => cases h; exact decodeFrame_response (by simp)
  | decode6 => cases h; exact decodeFrame_response (by simp)
  | decode7 => cases h; exact decodeFrame_response (by simp)
  | decode8 => cases h; exact decodeFrame_response (by simp)
  | decode9 => cases h; exact decodeFrame_response (by simp)
  | _ => cases h

/-- Settles O3. -/
theorem decodedFrameEncodes : Obligations.DecodedFrameEncodes := by
  intro f i h
  obtain ⟨rfl, rfl⟩ | ⟨body, rfl, hbody⟩ := decodeFrame_ok_cases h
  · rfl
  · exact encode_of_decodeBody hbody

/-- Every row a code selects has that code, read off the table for the sixteen codes. -/
theorem encode_of_mem_decodeSeq : ∀ (c : SeqCode), ∀ i ∈ decodeSeq c, encode i = .seq c := by decide

/-- Settles O4: the rows of each code have it, and each of the fifteen rows with a code stands in its code's list. -/
theorem seqCodeSelectsItsRows : Obligations.SeqCodeSelectsItsRows := by
  refine fun i c => ⟨encode_of_mem_decodeSeq c i, fun h => ?_⟩
  cases i <;> cases h
  all_goals decide

/-- Settles O5: the decoder's three tests in order. -/
theorem otherFramesRejected : Obligations.OtherFramesRejected := by
  intro f hreq
  match f with
  | [] | [_] => simp [decodeFrame, Config.req]
  | a :: b :: body =>
    rw [decodeFrame_cons hreq]
    refine ⟨fun hshort => ?short, fun ⟨hmin, hmax, hheader⟩ => ?badHdr, fun hlong => ?long⟩
    case short =>
      rw [if_pos (by simp only [List.length_cons] at hshort; omega)]
    case badHdr =>
      simp only [List.length_cons] at hmin hmax
      have hne : ¬(a = Config.hdr0 ∧ b = Config.hdr1) := by
        rintro ⟨rfl, rfl⟩
        simp [Config.hdr0, Config.hdr1] at hheader
      rw [if_neg (by omega), if_neg hne, if_neg (by omega)]
    case long =>
      simp only [List.length_cons] at hlong
      have hbody : decodeBody body = .error .long := by
        match body with
        | _ :: _ :: _ :: _ :: _ :: _ :: _ :: _ :: _ => rfl
      rw [if_neg (by omega), hbody, if_pos (show 7 < body.length by omega), ite_self]

/-- Settles O1, by evaluating the decoder on the eight words. -/
theorem tableWordsDecode : Obligations.TableWordsDecode := by
  unfold Obligations.TableWordsDecode
  decide

end Sys2Proof

/-! PROOFS. The codec's trailer and its stops (40_codec.md R92 to R97; 70_reset_and_hazards.md R211). -/

namespace Sys2Proof.Machine

/-! ## A response cut into body and trailer -/

/-- The sum leaves out byte 0 and the trailer (R97 a). -/
theorem innerSum_cons_append (a : Byte) (l : Frame) (t : Byte) :
    innerSum (a :: l ++ [t]) = (l.map BitVec.toNat).sum := by
  simp [innerSum]

theorem trailerNat_append (l : Frame) (t : Byte) : trailerNat (l ++ [t]) = t.toNat := by
  simp [trailerNat, List.getLastD_eq_getLast?]

/-- The checksum condition solved for the trailer: the two's complement of the sum (R75). -/
theorem add_mod_256_eq_zero_iff (n : Nat) (t : Byte) :
    (n % 256 + t.toNat) % 256 = 0 ↔ t = BitVec.ofNat 8 ((256 - n % 256) % 256) := by
  rw [← BitVec.toNat_inj, BitVec.toNat_ofNat]
  omega

/-- Settles O11: header and length hold, so validity is the checksum condition, solved for the trailer. -/
theorem exactlyOneTrailerIsValid : Obligations.ExactlyOneTrailerIsValid := by
  intro body t hlen
  have hsum : innerSum (0xFF :: 0x86 :: body ++ [t]) = 0x86 + (body.map BitVec.toNat).sum :=
    innerSum_cons_append 0xFF (0x86 :: body) t
  have htrailer : trailerNat (0xFF :: 0x86 :: body ++ [t]) = t.toNat := trailerNat_append (0xFF :: 0x86 :: body) t
  have hfour : 4 ≤ (0xFF :: 0x86 :: body ++ [t]).length := by simpa using hlen
  rw [validateFrame_iff_tests, hsum, htrailer, ← add_mod_256_eq_zero_iff]
  exact ⟨fun ⟨_, _, _, h⟩ => h, fun h => ⟨hfour, rfl, rfl, h⟩⟩

/-! ## Where the codec stops -/

theorem decodeOf_of_invalid {body : Frame} (s : State) (hvalid : validateFrame (respFrame body) = false) :
    decodeOf body s = .fault .decodeUnvalidated := by
  have hnone : decodeReading (respFrame body) = none := by simp [decodeReading, hvalid]
  rw [decodeOf, hnone]

/-- DECODE completes on the valid responses only (R182, U1). -/
theorem valid_of_decodeOf_next {body : Frame} {s t : State} (h : decodeOf body s = .next t) :
    validateFrame (respFrame body) = true := by
  cases hvalid : validateFrame (respFrame body) with
  | true => rfl
  | false => cases (decodeOf_of_invalid s hvalid).symm.trans h

theorem exec_chksum_of_lt_two {r : Frame} (hlen : r.length < 2) (s : State) :
    exec (.chksum r) s = .fault .checksumUndefined := by
  have hnone : checksum r = none := if_pos hlen
  change execChksum r s = _
  rw [execChksum, hnone]

/-- Settles O14: the frame is valid and its byte 3 is the one valid trailer of its first three bytes. -/
theorem fourByteReadingIsForced : Obligations.FourByteReadingIsForced := by
  intro s t h cs hexec
  have hvalid : validateFrame (respFrame [h, cs]) = true := valid_of_decodeOf_next hexec
  have hcs : cs = BitVec.ofNat 8 ((256 - (0x86 + h.toNat) % 256) % 256) :=
    (exactlyOneTrailerIsValid [h] cs le_rfl).mp hvalid
  have hlow : cs.toNat = (256 - (0x86 + h.toNat) % 256) % 256 := by rw [hcs, BitVec.toNat_ofNat]; omega
  cases (decodeOf_of_valid [h, cs] s hvalid).symm.trans hexec
  rw [← hlow, Nat.mul_comm]
  rfl

/-- Settles O8. -/
theorem chksumOfTooFewBytesStops : Obligations.ChksumOfTooFewBytesStops :=
  fun s _ hlen => exec_chksum_of_lt_two hlen s

/-- Settles O13: every form is DECODE of its bytes after the header, so one lemma serves the six. -/
theorem decodeOfAnInvalidFrameFaults : Obligations.DecodeOfAnInvalidFrameFaults :=
  fun s _ _ _ _ _ _ _ => ⟨decodeOf_of_invalid s, decodeOf_of_invalid s, decodeOf_of_invalid s, decodeOf_of_invalid s,
    decodeOf_of_invalid s, decodeOf_of_invalid s⟩

end Sys2Proof.Machine

/-! PROOFS. The sequencer's operations as rules: for each row of R81 where it is selected, what it needs and what it answers,
written out (41_reader.md section 2, 42_pollloop.md section 2). `Runs` is `exec` restricted to the selected operations
(`runs_iff`), so a proof over all operations is a case analysis on its rules. -/

namespace Sys2Proof.Machine

variable {s t : State} {i : Instr} {r : Result}

/-- The answer `v` of `Now()`, with the draws `d` and the listed answers `q` left after it (R156, logs 5 and 6). -/
def NowAnswers (s : State) (v d : Nat) (q : List Nat) : Prop :=
  (∃ a, s.env.now = a :: q ∧ v = a % 2 ^ s.params.timeW ∧ d = s.draws) ∨
  (s.env.now = [] ∧ q = [] ∧ v = Config.nowAnswer s.draws % 2 ^ s.params.timeW ∧ d = s.draws + 1)

/-- The events of a read failure, in the order of R176 (D29). -/
def failureEvents (f : Failure) (rxlen : Index) : List Event :=
  match f with
  | .badSum a b => [.log (.chksumMismatch a b), .inc .readErrs, .log (failureLog f rxlen)]
  | _ => [.inc .readErrs, .log (failureLog f rxlen)]

/-- The rules: `Runs s i r` when operation `i` is selected in `s` and answers `r`. -/
inductive Runs (s : State) : Instr → Result → Prop where
  | plStart {v d q} : s.seq = sStarting → NowAnswers s v d q →
    Runs s .plStart (.next { s with
      startTime := v, out := s.out ++ [.started], seq := sWait, draws := d, env := { s.env with now := q } })
  | plWaitFirst : s.seq = sWait → s.iter = 0 → Runs s .plWait (.next { s with seq := sIter })
  | plWaitLater {n} : s.seq = sWait → s.iter ≠ 0 → s.env.ticks = n + 1 →
    Runs s .plWait (.next { s with seq := sIter, env := { s.env with ticks := n } })
  | plIter {v d q} : s.seq = sIter → s.iter + 1 < 2 ^ s.params.iterW → NowAnswers s v d q →
    Runs s .plIter (.next { s with
      iter := s.iter + 1, uptime := timeSince s v, out := s.out ++ [.set .uptime (timeSince s v)]
      allok := true, sidx := 0, seq := sCall, draws := d, env := { s.env with now := q } })
  | plIterTop : s.seq = sIter → 2 ^ s.params.iterW ≤ s.iter + 1 → Runs s .plIter (.fault (.counterOverflow .iter))
  | rdBegin : s.seq = sCall → currentReader s = some .carbon → s.reads + 1 < 2 ^ s.params.cntW →
    Runs s .rdBegin (.next { s with
      reads := s.reads + 1, out := s.out ++ [.inc .reads], txi := 0, rxlen := 0, seq := sTx })
  | rdBeginTop : s.seq = sCall → currentReader s = some .carbon → 2 ^ s.params.cntW ≤ s.reads + 1 →
    Runs s .rdBegin (.fault (.counterOverflow .reads))
  | plCallx {k b rest} : s.seq = sCall → currentReader s = some (.ext k) → s.env.ext = b :: rest →
    Runs s .plCallx (.next { s with res := b, seq := sCollect, env := { s.env with ext := rest } })
  | rdTxb {rest} : s.seq = sTx → s.txi < 9#4 → s.env.tx = .accepted :: rest →
    Runs s .rdTxb (.next { s with
      out := s.out ++ [.tx (reqByte s.txi)], txi := s.txi + 1, seq := if s.txi + 1 = 9#4 then sRx else sTx
      env := { s.env with tx := rest } })
  | rdFaultTx {info rest} : s.seq = sTx → s.txi < 9#4 → s.env.tx = .fault info :: rest →
    s.readErrs + 1 < 2 ^ s.params.cntW →
    Runs s .rdFaultTx (.next { s with
      readErrs := s.readErrs + 1, out := s.out ++ failureEvents (.transport info) s.rxlen, res := false
      seq := sCollect, env := { s.env with tx := rest } })
  | rdFaultTxTop {info rest} : s.seq = sTx → s.txi < 9#4 → s.env.tx = .fault info :: rest →
    2 ^ s.params.cntW ≤ s.readErrs + 1 → Runs s .rdFaultTx (.fault (.counterOverflow .readErrs))
  | rdRxb {b rest} (hlt : s.rxlen.toNat < 9) : s.seq = sRx → s.rxlen < 9#4 → s.env.rx = .byte b :: rest →
    Runs s .rdRxb (.next { s with
      rxb := s.rxb.set s.rxlen.toNat b hlt, rxlen := s.rxlen + 1, env := { s.env with rx := rest } })
  | rdRxendFull : s.seq = sRx → s.rxlen = 9#4 → Runs s .rdRxend (.next { s with seq := sCheck })
  | rdRxendTimeout {rest} : s.seq = sRx → s.rxlen < 9#4 → s.env.rx = .timeout :: rest →
    Runs s .rdRxend (.next { s with seq := sCheck, env := { s.env with rx := rest } })
  | rdFaultRx {info rest} : s.seq = sRx → s.rxlen < 9#4 → s.env.rx = .fault info :: rest →
    s.readErrs + 1 < 2 ^ s.params.cntW →
    Runs s .rdFaultRx (.next { s with
      readErrs := s.readErrs + 1, out := s.out ++ failureEvents (.transport info) s.rxlen, res := false
      seq := sCollect, env := { s.env with rx := rest } })
  | rdFaultRxTop {info rest} : s.seq = sRx → s.rxlen < 9#4 → s.env.rx = .fault info :: rest →
    2 ^ s.params.cntW ≤ s.readErrs + 1 → Runs s .rdFaultRx (.fault (.counterOverflow .readErrs))
  | rdChkok {v} : s.seq = sCheck → respVerdict s = some .ok → (resp s).bind decodeReading = some v →
    Runs s .rdChkok (.next { s with
      ppm := v, out := s.out ++ [.set .co2Ppm v.toNat], ppmValid := true, res := true, seq := sCollect })
  | rdChkfail {w f} : s.seq = sCheck → respVerdict s = some w → failureOf w = some f →
    s.readErrs + 1 < 2 ^ s.params.cntW →
    Runs s .rdChkfail (.next { s with
      readErrs := s.readErrs + 1, out := s.out ++ failureEvents f s.rxlen, res := false, seq := sCollect })
  | rdChkfailTop {w f} : s.seq = sCheck → respVerdict s = some w → failureOf w = some f →
    2 ^ s.params.cntW ≤ s.readErrs + 1 → Runs s .rdChkfail (.fault (.counterOverflow .readErrs))
  | plCollect : s.seq = sCollect →
    Runs s .plCollect (.next { s with
      allok := s.allok && s.res, sidx := s.sidx + 1
      seq := if s.sidx + 1 = s.params.nReaders then sTally else sCall })
  | plTally : s.seq = sTally → tallied s ≠ s.params.maxFails →
    Runs s .plTally (.next { s with failcnt := tallied s, seq := sWait })
  | plTallyStop : s.seq = sTally → tallied s = s.params.maxFails →
    Runs s .plTally (.next { s with failcnt := tallied s, out := s.out ++ [.report s.iter], seq := sStopped })
  | plHalt : s.seq = sStopped → Runs s .plHalt (.next s)

/-! ## What the rules' parts are in the model -/

theorem takeNow_of_answers {v d : Nat} {q : List Nat} (h : NowAnswers s v d q) :
    takeNow s = (v, { s with draws := d, env := { s.env with now := q } }) := by
  obtain ⟨a, hcons, rfl, rfl⟩ | ⟨hnil, rfl, rfl, rfl⟩ := h
  · exact takeNow_cons hcons
  · rw [takeNow_nil hnil, ← hnil]

/-- `Now()` always answers (R156). -/
theorem exists_nowAnswers (s : State) : ∃ v d q, NowAnswers s v d q := by
  cases h : s.env.now with
  | nil => exact ⟨_, _, _, .inr ⟨h, rfl, rfl, rfl⟩⟩
  | cons a q => exact ⟨_, _, _, .inl ⟨a, h, rfl, rfl⟩⟩

theorem NowAnswers.lt {v d : Nat} {q : List Nat} (h : NowAnswers s v d q) : v < 2 ^ s.params.timeW := by
  obtain ⟨_, _, rfl, _⟩ | ⟨_, _, rfl, _⟩ := h <;> exact Nat.mod_lt _ (Nat.two_pow_pos _)

theorem timeSince_lt (s : State) (v : Nat) : timeSince s v < 2 ^ s.params.timeW := BitVec.isLt _

theorem failureEvents_eq (f : Failure) (s : State) :
    (failureFirstLog f s).out ++ [.inc .readErrs] ++ [.log (failureLog f s.rxlen)] =
      s.out ++ failureEvents f s.rxlen := by
  cases f <;> simp [failureFirstLog, failureEvents, logEvent]

theorem failureEvents_length_le (f : Failure) (n : Index) : (failureEvents f n).length ≤ 3 := by
  cases f <;> simp [failureEvents]

theorem failureFirstLog_eq (f : Failure) (s : State) :
    failureFirstLog f s = { s with out := (failureFirstLog f s).out } := by
  cases f <;> rfl

/-- A read failure with READ_ERRS below its top (R176). -/
theorem raiseFailure_of_lt (f : Failure) (hlt : s.readErrs + 1 < 2 ^ s.params.cntW) :
    ofExcept (raiseFailure f s) = .next { s with
      readErrs := s.readErrs + 1, out := s.out ++ failureEvents f s.rxlen, res := false, seq := sCollect } := by
  rw [raiseFailure, failureFirstLog_eq, metricInc_readErrs (by exact hlt), ← failureEvents_eq]
  rfl

/-- A read failure with READ_ERRS at its top (R182, D13). -/
theorem raiseFailure_top (f : Failure) (htop : 2 ^ s.params.cntW ≤ s.readErrs + 1) :
    ofExcept (raiseFailure f s) = .fault (.counterOverflow .readErrs) := by
  rw [raiseFailure, failureFirstLog_eq, metricInc_readErrs_top (by exact htop)]
  rfl

theorem failureOf_eq_none_iff {w : Verdict} : failureOf w = none ↔ w = .ok := by cases w <;> simp [failureOf]

theorem ne_ok_of_failureOf {w : Verdict} {f : Failure} (h : failureOf w = some f) : w ≠ .ok := by
  rintro rfl
  cases h

/-- An OK verdict is one on which DECODE has a value (R96). -/
theorem exists_reading_of_ok (h : respVerdict s = some .ok) : ∃ v, (resp s).bind decodeReading = some v := by
  obtain ⟨r, hr, hok⟩ := Option.map_eq_some_iff.mp h
  rw [hr, Option.bind_some]
  exact ⟨assembleReading r, decodeReading_eq_some.mpr ⟨(validateFrame_iff r).mpr hok, rfl⟩⟩

theorem ne_nine_of_lt {n : Index} (h : n < 9#4) : n ≠ 9#4 := by
  rintro rfl
  exact absurd h (by decide)

/-! ## The rules are exec on the selected operations -/

theorem Runs.enabled (h : Runs s i r) : enabled i s = true := by
  cases h with
  | plStart hseq => exact enabled_plStart.mpr hseq
  | plWaitFirst hseq hiter => exact enabled_plWait.mpr ⟨hseq, .inl hiter⟩
  | plWaitLater hseq _ htick => exact enabled_plWait.mpr ⟨hseq, .inr (by omega)⟩
  | plIter hseq | plIterTop hseq => exact enabled_plIter.mpr hseq
  | rdBegin hseq hrd | rdBeginTop hseq hrd => exact enabled_rdBegin.mpr ⟨hseq, hrd⟩
  | plCallx hseq hrd hext => exact enabled_plCallx.mpr ⟨hseq, ⟨_, hrd⟩, _, _, hext⟩
  | rdTxb hseq hlt htx => exact enabled_rdTxb.mpr ⟨hseq, hlt, _, htx⟩
  | rdFaultTx hseq hlt htx | rdFaultTxTop hseq hlt htx => exact enabled_rdFaultTx.mpr ⟨hseq, hlt, _, _, htx⟩
  | rdRxb _ hseq hlt hrx => exact enabled_rdRxb.mpr ⟨hseq, hlt, _, _, hrx⟩
  | rdRxendFull hseq hfull => exact enabled_rdRxend.mpr ⟨hseq, .inl hfull⟩
  | rdRxendTimeout hseq hlt hrx => exact enabled_rdRxend.mpr ⟨hseq, .inr ⟨hlt, _, hrx⟩⟩
  | rdFaultRx hseq hlt hrx | rdFaultRxTop hseq hlt hrx => exact enabled_rdFaultRx.mpr ⟨hseq, hlt, _, _, hrx⟩
  | rdChkok hseq hok => exact enabled_rdChkok.mpr ⟨hseq, hok⟩
  | rdChkfail hseq hw hf | rdChkfailTop hseq hw hf =>
    exact enabled_rdChkfail.mpr ⟨hseq, _, hw, ne_ok_of_failureOf hf⟩
  | plCollect hseq => exact enabled_plCollect.mpr hseq
  | plTally hseq | plTallyStop hseq => exact enabled_plTally.mpr hseq
  | plHalt hseq => exact enabled_plHalt.mpr hseq

/-- A rule's answer is what the meaning computes. -/
theorem Runs.exec_eq (h : Runs s i r) : exec i s = r := by
  have hsel := h.enabled
  cases h with
  | plStart _ hnow => rw [exec, execPlStart, guarded_enabled hsel, takeNow_of_answers hnow]; rfl
  | plWaitFirst _ hiter => rw [exec, execPlWait, guarded_enabled hsel, if_pos hiter]; rfl
  | plWaitLater _ hiter htick => rw [exec, execPlWait, guarded_enabled hsel, if_neg hiter, takeTick_succ htick]; rfl
  | plIter _ hlt hnow =>
    rw [exec, execPlIter, guarded_enabled hsel, if_pos hlt, takeNow_of_answers hnow]
    simp only [metricSet_uptime, Nat.mod_eq_of_lt (timeSince_lt s _)]
    rfl
  | plIterTop _ htop => rw [exec, execPlIter, guarded_enabled hsel, if_neg (Nat.not_lt.mpr htop)]
  | rdBegin _ _ hlt => rw [exec, execRdBegin, guarded_enabled hsel, metricInc_reads hlt]; rfl
  | rdBeginTop _ _ htop => rw [exec, execRdBegin, guarded_enabled hsel, metricInc_reads_top htop]
  | plCallx _ _ hext => rw [exec, execPlCallx, guarded_enabled hsel, takeExt_cons hext]; rfl
  | rdTxb _ _ htx => rw [exec, execRdTxb, guarded_enabled hsel, takeTx_cons htx]; rfl
  | rdFaultTx _ _ htx hlt =>
    rw [exec, execRdFaultTx, guarded_enabled hsel, takeTx_cons htx]
    exact raiseFailure_of_lt _ hlt
  | rdFaultTxTop _ _ htx htop =>
    rw [exec, execRdFaultTx, guarded_enabled hsel, takeTx_cons htx]
    exact raiseFailure_top _ htop
  | rdRxb hlt _ _ hrx =>
    rw [exec, execRdRxb, guarded_enabled hsel, takeRx_cons hrx]
    simp [memWrite, storeIndex, hlt]
  | rdRxendFull _ hfull => rw [exec, execRdRxend, guarded_enabled hsel, if_pos hfull]; rfl
  | rdRxendTimeout _ hlt hrx =>
    rw [exec, execRdRxend, guarded_enabled hsel, if_neg (ne_nine_of_lt hlt), takeRx_cons hrx]
    rfl
  | rdFaultRx _ _ hrx hlt =>
    rw [exec, execRdFaultRx, guarded_enabled hsel, takeRx_cons hrx]
    exact raiseFailure_of_lt _ hlt
  | rdFaultRxTop _ _ hrx htop =>
    rw [exec, execRdFaultRx, guarded_enabled hsel, takeRx_cons hrx]
    exact raiseFailure_top _ htop
  | rdChkok _ _ hread => exact exec_rdChkok_of_reading hsel hread
  | rdChkfail _ hw hf hlt =>
    rw [exec, execRdChkfail, guarded_enabled hsel, hw, Option.bind_some, hf]
    exact raiseFailure_of_lt _ hlt
  | rdChkfailTop _ hw hf htop =>
    rw [exec, execRdChkfail, guarded_enabled hsel, hw, Option.bind_some, hf]
    exact raiseFailure_top _ htop
  | plCollect hseq => exact exec_plCollect_of_seq hseq
  | plTally hseq hne => exact exec_plTally_of_ne hseq hne
  | plTallyStop hseq hstop => exact exec_plTally_of_eq hseq hstop
  | plHalt _ => rw [exec, execPlHalt, guarded_enabled hsel]

/-- A selected operation has a rule: the rules leave no case of a guard out. -/
theorem exists_runs_of_enabled (h : enabled i s = true) : ∃ r, Runs s i r := by
  cases i with
  | plStart =>
    obtain ⟨v, d, q, hnow⟩ := exists_nowAnswers s
    exact ⟨_, .plStart (enabled_plStart.mp h) hnow⟩
  | plWait =>
    obtain ⟨hseq, hanswer⟩ := enabled_plWait.mp h
    by_cases hiter : s.iter = 0
    · exact ⟨_, .plWaitFirst hseq hiter⟩
    · obtain ⟨n, htick⟩ := Nat.exists_eq_succ_of_ne_zero (hanswer.resolve_left hiter)
      exact ⟨_, .plWaitLater hseq hiter htick⟩
  | plIter =>
    obtain ⟨v, d, q, hnow⟩ := exists_nowAnswers s
    obtain hlt | htop := Nat.lt_or_ge (s.iter + 1) (2 ^ s.params.iterW)
    · exact ⟨_, .plIter (enabled_plIter.mp h) hlt hnow⟩
    · exact ⟨_, .plIterTop (enabled_plIter.mp h) htop⟩
  | rdBegin =>
    obtain ⟨hseq, hrd⟩ := enabled_rdBegin.mp h
    obtain hlt | htop := Nat.lt_or_ge (s.reads + 1) (2 ^ s.params.cntW)
    · exact ⟨_, .rdBegin hseq hrd hlt⟩
    · exact ⟨_, .rdBeginTop hseq hrd htop⟩
  | plCallx =>
    obtain ⟨hseq, ⟨k, hrd⟩, b, rest, hext⟩ := enabled_plCallx.mp h
    exact ⟨_, .plCallx hseq hrd hext⟩
  | rdTxb =>
    obtain ⟨hseq, htxi, rest, htx⟩ := enabled_rdTxb.mp h
    exact ⟨_, .rdTxb hseq htxi htx⟩
  | rdFaultTx =>
    obtain ⟨hseq, htxi, info, rest, htx⟩ := enabled_rdFaultTx.mp h
    obtain hlt | htop := Nat.lt_or_ge (s.readErrs + 1) (2 ^ s.params.cntW)
    · exact ⟨_, .rdFaultTx hseq htxi htx hlt⟩
    · exact ⟨_, .rdFaultTxTop hseq htxi htx htop⟩
  | rdRxb =>
    obtain ⟨hseq, hrxlen, b, rest, hrx⟩ := enabled_rdRxb.mp h
    exact ⟨_, .rdRxb hrxlen hseq hrxlen hrx⟩
  | rdRxend =>
    obtain ⟨hseq, hfull | ⟨hrxlen, rest, hrx⟩⟩ := enabled_rdRxend.mp h
    · exact ⟨_, .rdRxendFull hseq hfull⟩
    · exact ⟨_, .rdRxendTimeout hseq hrxlen hrx⟩
  | rdFaultRx =>
    obtain ⟨hseq, hrxlen, info, rest, hrx⟩ := enabled_rdFaultRx.mp h
    obtain hlt | htop := Nat.lt_or_ge (s.readErrs + 1) (2 ^ s.params.cntW)
    · exact ⟨_, .rdFaultRx hseq hrxlen hrx hlt⟩
    · exact ⟨_, .rdFaultRxTop hseq hrxlen hrx htop⟩
  | rdChkok =>
    obtain ⟨hseq, hok⟩ := enabled_rdChkok.mp h
    obtain ⟨v, hread⟩ := exists_reading_of_ok hok
    exact ⟨_, .rdChkok hseq hok hread⟩
  | rdChkfail =>
    obtain ⟨hseq, w, hw, hne⟩ := enabled_rdChkfail.mp h
    obtain ⟨f, hf⟩ := Option.ne_none_iff_exists'.mp (mt failureOf_eq_none_iff.mp hne)
    obtain hlt | htop := Nat.lt_or_ge (s.readErrs + 1) (2 ^ s.params.cntW)
    · exact ⟨_, .rdChkfail hseq hw hf hlt⟩
    · exact ⟨_, .rdChkfailTop hseq hw hf htop⟩
  | plCollect => exact ⟨_, .plCollect (enabled_plCollect.mp h)⟩
  | plTally =>
    by_cases hstop : tallied s = s.params.maxFails
    · exact ⟨_, .plTallyStop (enabled_plTally.mp h) hstop⟩
    · exact ⟨_, .plTally (enabled_plTally.mp h) hstop⟩
  | plHalt => exact ⟨_, .plHalt (enabled_plHalt.mp h)⟩
  | _ => cases h

/-- The rules are exec where the operation is selected. -/
theorem runs_iff : Runs s i r ↔ enabled i s = true ∧ exec i s = r := by
  refine ⟨fun h => ⟨h.enabled, h.exec_eq⟩, fun ⟨hsel, hexec⟩ => ?_⟩
  obtain ⟨r', hruns⟩ := exists_runs_of_enabled hsel
  rwa [← hexec, hruns.exec_eq]

end Sys2Proof.Machine

/-! PROOFS. The operations one at a time (41_reader.md section 2, 42_pollloop.md section 2): each obligation is the
operation's rule, read as an equation of exec. -/

namespace Sys2Proof.Machine

variable {s : State}

/-! ## Poll loop -/

/-- Settles O15. Without a listed answer the empty list stays as it is. -/
theorem startCapturesTheTime : Obligations.StartCapturesTheTime := by
  refine fun s hseq => ⟨fun t rest hnow => ?listed, fun hnow => ?free⟩
  case listed => exact (Runs.plStart hseq (.inl ⟨t, hnow, rfl, rfl⟩)).exec_eq
  case free =>
    rw [(Runs.plStart hseq (.inr ⟨hnow, rfl, rfl, rfl⟩)).exec_eq, ← hnow]

/-- Settles O16. -/
theorem waitEndsWithTheInterval : Obligations.WaitEndsWithTheInterval :=
  fun _ hseq => ⟨fun hiter => (Runs.plWaitFirst hseq hiter).exec_eq,
    fun _ hiter htick => (Runs.plWaitLater hseq hiter htick).exec_eq⟩

/-- The difference modulo 2^TIME_W, on numbers (R133); reducing the minuend first changes nothing. -/
theorem timeSince_mod (s : State) (v : Nat) : timeSince s (v % 2 ^ s.params.timeW) =
    (2 ^ s.params.timeW - s.startTime % 2 ^ s.params.timeW + v) % 2 ^ s.params.timeW := by
  simp [timeSince, BitVec.toNat_sub]

/-- Settles O17: PL.ITER's rule, its uptime the difference on numbers. -/
theorem iterCountsAndPublishesTheUptime : Obligations.IterCountsAndPublishesTheUptime := by
  refine fun s hseq hlt => ⟨fun t rest hnow => ?listed, fun hnow => ?free⟩
  case listed => rw [(Runs.plIter hseq hlt (.inl ⟨t, hnow, rfl, rfl⟩)).exec_eq, timeSince_mod]
  case free => rw [(Runs.plIter hseq hlt (.inr ⟨hnow, rfl, rfl, rfl⟩)).exec_eq, timeSince_mod, ← hnow]

/-- Settles O18. -/
theorem callxTakesTheResult : Obligations.CallxTakesTheResult :=
  fun _ _ _ _ hseq hrd hext => (Runs.plCallx hseq hrd hext).exec_eq

/-! ## Reader -/

/-- Settles O22. -/
theorem beginCountsTheAttempt : Obligations.BeginCountsTheAttempt :=
  fun _ hseq hrd hlt => (Runs.rdBegin hseq hrd hlt).exec_eq

theorem txi_succ_eq_nine_iff (n : Index) : n + 1 = 9#4 ↔ n = 8#4 := by
  revert n
  decide

/-- Settles O23. -/
theorem txbSendsTheNextRequestByte : Obligations.TxbSendsTheNextRequestByte := by
  intro s rest hseq htxi htx
  rw [(Runs.rdTxb hseq htxi htx).exec_eq]
  simp only [txi_succ_eq_nine_iff]
  rfl

/-- Settles O24. -/
theorem rxbStoresTheByteAtRxlen : Obligations.RxbStoresTheByteAtRxlen := by
  intro s b rest hseq hrxlen hrx
  have hlt : s.rxlen.toNat < 9 := hrxlen
  exact ⟨_, (Runs.rdRxb hlt hseq hrxlen hrx).exec_eq, rfl, by simp [hlt], fun a ha => by simp [Ne.symm ha]⟩

/-- Settles O25. -/
theorem rxendEndsTheCollection : Obligations.RxendEndsTheCollection :=
  fun _ hseq => ⟨fun hfull => (Runs.rdRxendFull hseq hfull).exec_eq,
    fun _ hrxlen hrx => (Runs.rdRxendTimeout hseq hrxlen hrx).exec_eq⟩

/-- Settles O26. -/
theorem transportFaultFailsTheRefresh : Obligations.TransportFaultFailsTheRefresh :=
  fun _ _ hlt => ⟨fun _ hseq htxi htx => (Runs.rdFaultTx hseq htxi htx hlt).exec_eq,
    fun _ hseq hrxlen hrx => (Runs.rdFaultRx hseq hrxlen hrx hlt).exec_eq⟩

/-- RD.CHKFAIL on a received response CLASSIFY finds invalid, READ_ERRS below its top (R117). -/
theorem exec_rdChkfail_of_verdict {w : Verdict} {f : Failure} (hseq : s.seq = sCheck) (hrxlen : s.rxlen ≤ 9#4)
    (hlt : s.readErrs + 1 < 2 ^ s.params.cntW) (hw : classifyFrame (s.rxb.toList.take s.rxlen.toNat) = w)
    (hf : failureOf w = some f) :
    exec .rdChkfail s = .next { s with
      readErrs := s.readErrs + 1, out := s.out ++ failureEvents f s.rxlen, res := false, seq := sCollect } :=
  (Runs.rdChkfail hseq (hw ▸ respVerdict_of_rxlen_le hrxlen) hf hlt).exec_eq

/-- Settles O28: the three invalid verdicts, each with the events of its failure. -/
theorem chkfailCountsAndLogs : Obligations.ChkfailCountsAndLogs :=
  fun _ hseq hrxlen hlt => ⟨fun hw => exec_rdChkfail_of_verdict hseq hrxlen hlt hw rfl,
    fun hw => exec_rdChkfail_of_verdict hseq hrxlen hlt hw rfl,
    fun _ _ hw => exec_rdChkfail_of_verdict hseq hrxlen hlt hw rfl⟩

/-! ## Counters at their top -/

/-- A counter at its greatest value has no room for one more (R153). -/
theorem two_pow_le_succ_of_eq_pred {n w : Nat} (h : n = 2 ^ w - 1) : 2 ^ w ≤ n + 1 := by omega

/-- Settles O29. -/
theorem countersAtTheTopFault : Obligations.CountersAtTheTopFault := by
  refine fun s => ⟨fun hseq htop => ?iter, fun hseq hrd htop => ?reads, fun info rest hseq htxi htx htop => ?faultTx,
    fun info rest hseq hrxlen hrx htop => ?faultRx, fun hseq hrxlen hbad htop => ?chkfail⟩
  all_goals have htop := two_pow_le_succ_of_eq_pred htop
  case iter => exact (Runs.plIterTop hseq htop).exec_eq
  case reads => exact (Runs.rdBeginTop hseq hrd htop).exec_eq
  case faultTx => exact (Runs.rdFaultTxTop hseq htxi htx htop).exec_eq
  case faultRx => exact (Runs.rdFaultRxTop hseq hrxlen hrx htop).exec_eq
  case chkfail =>
    obtain ⟨f, hf⟩ := Option.ne_none_iff_exists'.mp (mt failureOf_eq_none_iff.mp hbad)
    exact (Runs.rdChkfailTop hseq (respVerdict_of_rxlen_le hrxlen) hf htop).exec_eq

end Sys2Proof.Machine

/-! PROOFS. The selection and the step (30_encoding.md R81; 70_reset_and_hazards.md R200, R214; 60_exceptions.md R182). -/

namespace Sys2Proof.Machine

variable {s t : State} {i : Instr} {r : Result}

/-! ## What the selection answers -/

/-- The selection looks at SEQ's rows in order, and the guards of one code's rows exclude each other. -/
theorem choose_of_enabled (h : enabled i s = true) : choose s = .run i := by
  obtain ⟨r, hruns⟩ := exists_runs_of_enabled h
  cases hruns with
  | plStart hseq | plWaitFirst hseq | plWaitLater hseq | plIter hseq | plIterTop hseq | rdBegin hseq | rdBeginTop hseq
  | rdTxb hseq | rdRxb _ hseq | rdChkok hseq | plCollect hseq | plTally hseq | plTallyStop hseq | plHalt hseq =>
    simp [choose, hseq, decodeSeq, h]
  | plCallx hseq hrd =>
    have hbegin : enabled .rdBegin s = false := by simp [enabled, hrd]
    simp [choose, hseq, decodeSeq, hbegin, h]
  | rdFaultTx hseq _ htx | rdFaultTxTop hseq _ htx =>
    have htxb : enabled .rdTxb s = false := by simp [enabled, htx]
    simp [choose, hseq, decodeSeq, htxb, h]
  | rdRxendFull hseq hfull =>
    have hrxb : enabled .rdRxb s = false := by simp [enabled, hfull]
    simp [choose, hseq, decodeSeq, hrxb, h]
  | rdRxendTimeout hseq _ hrx =>
    have hrxb : enabled .rdRxb s = false := by simp [enabled, hrx]
    simp [choose, hseq, decodeSeq, hrxb, h]
  | rdFaultRx hseq hlt hrx | rdFaultRxTop hseq hlt hrx =>
    have hrxb : enabled .rdRxb s = false := by simp [enabled, hrx]
    have hrxend : enabled .rdRxend s = false := by simp [enabled, hrx, ne_nine_of_lt hlt]
    simp [choose, hseq, decodeSeq, hrxb, hrxend, h]
  | rdChkfail hseq hw hf | rdChkfailTop hseq hw hf =>
    have hchkok : enabled .rdChkok s = false := by simp [enabled, hw, ne_ok_of_failureOf hf]
    simp [choose, hseq, decodeSeq, hchkok, h]

theorem held_of_choose (h : choose s = .held) : held s = true := by
  unfold choose at h
  split at h
  · cases h
  · split_ifs at h with hbad hheld
    exact hheld

/-! ## What the step answers -/

theorem step_of_reset (hreset : s.resetReq = true) :
    step s = .next { State.resetWith s.params with env := s.env, draws := s.draws } := if_pos hreset

theorem step_of_run (hreset : s.resetReq = false) (hlegal : s.params.legal = true) (h : choose s = .run i) :
    step s = exec i s := by
  simp [step, hreset, hlegal, h]

theorem step_of_enabled (hreset : s.resetReq = false) (hlegal : s.params.legal = true) (h : enabled i s = true) :
    step s = exec i s :=
  step_of_run hreset hlegal (choose_of_enabled h)

theorem Runs.step_eq (hreset : s.resetReq = false) (hlegal : s.params.legal = true) (h : Runs s i r) : step s = r :=
  (step_of_enabled hreset hlegal h.enabled).trans h.exec_eq

theorem step_of_held (hreset : s.resetReq = false) (hlegal : s.params.legal = true) (h : choose s = .held) :
    step s = .next s := by
  simp [step, hreset, hlegal, h]

theorem step_of_badSeq (hreset : s.resetReq = false) (hlegal : s.params.legal = true) (h : choose s = .badSeq) :
    step s = .refused (.badSeq s.seq) := by
  simp [step, hreset, hlegal, h]

theorem step_of_illegal (hreset : s.resetReq = false) (hlegal : s.params.legal = true) (h : choose s = .illegal) :
    step s = .refused .illegalState := by
  simp [step, hreset, hlegal, h]

theorem step_of_not_legal (hreset : s.resetReq = false) (hlegal : s.params.legal = false) :
    step s = .refused .badConfiguration := by
  simp [step, hreset, hlegal]

/-- A step other than a reset that answers a next state follows a rule or is a hold. -/
theorem runs_or_held_of_step_next (hreset : s.resetReq = false) (h : step s = .next t) :
    (∃ i, Runs s i (.next t)) ∨ (held s = true ∧ t = s) := by
  obtain ⟨i, -, hsel, hexec⟩ | ⟨hheld, rfl⟩ := step_next hreset h
  · exact .inl ⟨i, runs_iff.mpr ⟨hsel, hexec⟩⟩
  · exact .inr ⟨held_of_choose hheld, rfl⟩

/-! ## The obligations -/

/-- Settles O40: each of the two is what the selection answers. -/
theorem atMostOneOperationEnabled : Obligations.AtMostOneOperationEnabled := by
  intro i j s hi hj
  have hrun : Choice.run i = Choice.run j := (choose_of_enabled hi).symm.trans (choose_of_enabled hj)
  exact Choice.run.inj hrun

/-- Settles O38; the code need not be asked for, an enabled operation having SEQ's. -/
theorem stepRunsTheSelectedOperation : Obligations.StepRunsTheSelectedOperation :=
  ⟨fun _ _ hreset hlegal _ hsel => step_of_enabled hreset hlegal hsel, fun _ hreset => step_of_reset hreset⟩

/-- Settles O39: each row's conditions are its operation's guard. -/
theorem selectionTable : Obligations.SelectionTable := by
  intro s hreset hlegal
  have hstep {i : Instr} (h : enabled i s = true) : step s = exec i s := step_of_enabled hreset hlegal h
  refine ⟨fun hseq => hstep (enabled_plStart.mpr hseq),
    fun hseq hiter => hstep (enabled_plWait.mpr ⟨hseq, .inl hiter⟩),
    fun hseq _ htick => hstep (enabled_plWait.mpr ⟨hseq, .inr htick⟩),
    fun hseq => hstep (enabled_plIter.mpr hseq),
    fun hseq hrd => hstep (enabled_rdBegin.mpr ⟨hseq, hrd⟩),
    fun k hseq hrd hext => hstep (enabled_plCallx.mpr ⟨hseq, ⟨k, hrd⟩, List.ne_nil_iff_exists_cons.mp hext⟩),
    fun hseq htxi htx => hstep (enabled_rdTxb.mpr ⟨hseq, htxi, List.head?_eq_some_iff.mp htx⟩),
    fun info hseq htxi htx => hstep (enabled_rdFaultTx.mpr ⟨hseq, htxi, info, List.head?_eq_some_iff.mp htx⟩),
    fun b hseq hrxlen hrx => hstep (enabled_rdRxb.mpr ⟨hseq, hrxlen, b, List.head?_eq_some_iff.mp hrx⟩),
    fun hseq hrxlen hrx => hstep (enabled_rdRxend.mpr ⟨hseq, .inr ⟨hrxlen, List.head?_eq_some_iff.mp hrx⟩⟩),
    fun info hseq hrxlen hrx => hstep (enabled_rdFaultRx.mpr ⟨hseq, hrxlen, info, List.head?_eq_some_iff.mp hrx⟩),
    fun hseq hfull => hstep (enabled_rdRxend.mpr ⟨hseq, .inl hfull⟩),
    fun hseq hrxlen hok => hstep (enabled_rdChkok.mpr ⟨hseq, hok ▸ respVerdict_of_rxlen_le hrxlen⟩),
    fun hseq hrxlen hbad => hstep (enabled_rdChkfail.mpr ⟨hseq, _, respVerdict_of_rxlen_le hrxlen, hbad⟩),
    fun hseq => hstep (enabled_plCollect.mpr hseq), fun hseq => hstep (enabled_plTally.mpr hseq),
    fun hseq => hstep (enabled_plHalt.mpr hseq)⟩

/-- Settles O41: in each of the four places no row's guard holds without the answer. -/
theorem heldUntilThePortAnswers : Obligations.HeldUntilThePortAnswers := by
  refine fun s hreset hlegal => ⟨fun hseq hiter htick => ?wait, fun k hseq hrd hext => ?call,
    fun hseq htxi htx => ?tx, fun hseq hrxlen hrx => ?rx⟩
  all_goals apply step_of_held hreset hlegal
  case wait => simp [choose, hseq, decodeSeq, enabled, held, hiter, htick, sStopped]
  case call =>
    have hcur : currentReader s = some (.ext k) := hrd
    simp [choose, hseq, decodeSeq, enabled, held, hcur, atExternal_iff, hext]
  case tx => simp [choose, hseq, decodeSeq, enabled, held, htxi, htx]
  case rx => simp [choose, hseq, decodeSeq, enabled, held, hrxlen, ne_nine_of_lt hrxlen, hrx]

/-- The codes 10 to 15 select no row (R80). -/
theorem decodeSeq_of_stopped_lt : ∀ c : SeqCode, sStopped < c → decodeSeq c = [] := by decide

/-- With an index above its range there is no received frame (R53). -/
theorem respVerdict_of_nine_lt (h : 9#4 < s.rxlen) : respVerdict s = none := by
  have hgt : ¬s.rxlen.toNat ≤ 9 := Nat.not_le.mpr h
  simp [respVerdict, resp, memRead, Config.rxMax, hgt]

/-- Settles O42. -/
theorem stepRefusesWhatIsOutsideTheModel : Obligations.StepRefusesWhatIsOutsideTheModel := by
  refine fun s hreset => ⟨step_of_not_legal hreset, fun hlegal hseq => ?code, fun hlegal hseq hidx => ?call,
    fun hlegal hseq htxi => ?tx, fun hlegal hseq hrxlen => ?rx, fun hlegal hseq hrxlen => ?check⟩
  case code =>
    apply step_of_badSeq hreset hlegal
    simp [choose, decodeSeq_of_stopped_lt _ hseq, hseq]
  all_goals apply step_of_illegal hreset hlegal
  case call =>
    have hcur : currentReader s = none := List.getElem?_eq_none hidx
    simp [choose, hseq, decodeSeq, enabled, held, hcur, atExternal_iff, sWait, sCall, sTx, sRx]
  case tx =>
    have hroom : ¬s.txi < 9#4 := BitVec.not_lt.mpr htxi
    simp [choose, hseq, decodeSeq, enabled, held, hroom, sWait, sCall, sTx, sRx]
  case rx =>
    have hroom : ¬s.rxlen < 9#4 := BitVec.not_lt.mpr (BitVec.le_of_lt hrxlen)
    have hne : s.rxlen ≠ 9#4 := by
      intro h9
      rw [h9] at hrxlen
      exact absurd hrxlen (by decide)
    simp [choose, hseq, decodeSeq, enabled, held, hroom, hne, sWait, sCall, sTx, sRx]
  case check => simp [choose, hseq, decodeSeq, enabled, held, respVerdict_of_nine_lt hrxlen, sWait, sCall, sTx, sRx, sCheck]

/-- Settles O30: each of the fifteen meanings is guarded by its own selection. -/
theorem unselectedOperationIsRefused : Obligations.UnselectedOperationIsRefused := by
  intro i s c hcode hsel
  cases i <;> cases hcode
  all_goals exact guarded_not_enabled hsel

/-- Settles O21. -/
theorem stoppedIsTerminal : Obligations.StoppedIsTerminal :=
  fun _ hseq => ⟨(Runs.plHalt hseq).exec_eq, fun hreset hlegal => (Runs.plHalt hseq).step_eq hreset hlegal⟩

/-- Settles O43. -/
theorem resetAtAnyTime : Obligations.ResetAtAnyTime :=
  fun _ hreset => step_of_reset hreset

end Sys2Proof.Machine

/-! PROOFS. What the sequencer never reads: the metric registers (10_state.md section 5) and the elements that hold no value
(10_state.md section 8). -/

namespace Sys2Proof.Machine

variable {s t : State} {i : Instr} {r : Result}

/-- The selection reads SEQ, ITER, TXI, the reader at SIDX, the answers and RESP, and nothing else (R81). -/
theorem choose_congr (hseq : t.seq = s.seq) (hiter : t.iter = s.iter) (htxi : t.txi = s.txi)
    (hrxlen : t.rxlen = s.rxlen) (hreader : currentReader t = currentReader s) (henv : t.env = s.env)
    (hresp : resp t = resp s) : choose t = choose s := by
  have hverdict : respVerdict t = respVerdict s := by rw [respVerdict, hresp, respVerdict]
  have hsel : ∀ i, enabled i t = enabled i s := by
    intro i
    cases i <;> simp only [enabled, atExternal, hseq, hiter, htxi, hrxlen, hreader, henv, hverdict]
  have hheld : held t = held s := by
    simp only [held, atExternal, hseq, hiter, htxi, hrxlen, hreader, henv]
  simp only [choose, hseq, hsel, hheld]

/-! ## The metric registers -/

/-- The state with other values in UPTIME, PPM, PPM_VALID, READS and READ_ERRS. -/
def State.withMetrics (s : State) (u : Nat) (p : Reading) (pv : Bool) (n e : Nat) : State :=
  { s with uptime := u, ppm := p, ppmValid := pv, reads := n, readErrs := e }

variable {u n e : Nat} {p : Reading} {pv : Bool}

theorem choose_withMetrics : choose (s.withMetrics u p pv n e) = choose s :=
  choose_congr rfl rfl rfl rfl rfl rfl rfl

/-- Each rule that completes has, with other metrics, the same premises, but for the room of a counter. -/
theorem Runs.withMetrics (hn : n + 1 < 2 ^ s.params.cntW) (he : e + 1 < 2 ^ s.params.cntW)
    (h : Runs s i (.next t)) :
    ∃ u' p' pv' n' e', Runs (s.withMetrics u p pv n e) i (.next (t.withMetrics u' p' pv' n' e')) := by
  cases h with
  | plStart hseq hnow => exact ⟨_, _, _, _, _, .plStart hseq hnow⟩
  | plWaitFirst hseq hiter => exact ⟨_, _, _, _, _, .plWaitFirst hseq hiter⟩
  | plWaitLater hseq hiter htick => exact ⟨_, _, _, _, _, .plWaitLater hseq hiter htick⟩
  | plIter hseq hlt hnow => exact ⟨_, _, _, _, _, .plIter hseq hlt hnow⟩
  | rdBegin hseq hrd => exact ⟨_, _, _, _, _, .rdBegin hseq hrd hn⟩
  | plCallx hseq hrd hext => exact ⟨_, _, _, _, _, .plCallx hseq hrd hext⟩
  | rdTxb hseq htxi htx => exact ⟨_, _, _, _, _, .rdTxb hseq htxi htx⟩
  | rdFaultTx hseq htxi htx => exact ⟨_, _, _, _, _, .rdFaultTx hseq htxi htx he⟩
  | rdRxb hlt hseq hrxlen hrx => exact ⟨_, _, _, _, _, .rdRxb (s := s.withMetrics u p pv n e) hlt hseq hrxlen hrx⟩
  | rdRxendFull hseq hfull => exact ⟨_, _, _, _, _, .rdRxendFull hseq hfull⟩
  | rdRxendTimeout hseq hrxlen hrx => exact ⟨_, _, _, _, _, .rdRxendTimeout hseq hrxlen hrx⟩
  | rdFaultRx hseq hrxlen hrx => exact ⟨_, _, _, _, _, .rdFaultRx hseq hrxlen hrx he⟩
  | rdChkok hseq hok hread => exact ⟨_, _, _, _, _, .rdChkok hseq hok hread⟩
  | rdChkfail hseq hw hf => exact ⟨_, _, _, _, _, .rdChkfail hseq hw hf he⟩
  | plCollect hseq => exact ⟨_, _, _, _, _, .plCollect hseq⟩
  | plTally hseq hne => exact ⟨_, _, _, _, _, .plTally hseq hne⟩
  | plTallyStop hseq hstop => exact ⟨_, _, _, _, _, .plTallyStop hseq hstop⟩
  | plHalt hseq => exact ⟨_, _, _, _, _, .plHalt hseq⟩

/-- A step that answers a next state asks for legal parameters, unless it is a reset. -/
theorem legal_of_step_next (hreset : s.resetReq = false) (h : step s = .next t) : s.params.legal = true := by
  cases hlegal : s.params.legal with
  | true => rfl
  | false => cases (step_of_not_legal hreset hlegal).symm.trans h

/-- Settles O56: a reset writes all five registers, a hold leaves the new values, and a rule runs on them as before. -/
theorem metricRegistersAreWriteOnly : Obligations.MetricRegistersAreWriteOnly := by
  intro s t u p pv n e hn he hstep
  change ∃ u' p' pv' n' e', step (s.withMetrics u p pv n e) = .next (t.withMetrics u' p' pv' n' e')
  cases hreset : s.resetReq with
  | true =>
    cases (step_of_reset hreset).symm.trans hstep
    exact ⟨_, _, _, _, _, step_of_reset hreset⟩
  | false =>
    have hlegal := legal_of_step_next hreset hstep
    obtain ⟨i, -, hsel, hexec⟩ | ⟨hheld, rfl⟩ := step_next hreset hstep
    · obtain ⟨u', p', pv', n', e', hruns⟩ := (runs_iff.mpr ⟨hsel, hexec⟩).withMetrics hn he
      exact ⟨u', p', pv', n', e', hruns.step_eq hreset hlegal⟩
    · exact ⟨u, p, pv, n, e, step_of_held hreset hlegal (choose_withMetrics.trans hheld)⟩

/-! ## The elements that hold no value -/

/-- Two outcomes are alike: next states that agree on what is written, or the same stop. -/
inductive Alike : Result → Result → Prop where
  | next {t t' : State} : SameWritten t t' → Alike (.next t) (.next t')
  | fault {f : Fault} : Alike (.fault f) (.fault f)
  | refused {q : Refusal} : Alike (.refused q) (.refused q)

theorem SameWritten.resp_eq {s' : State} (h : SameWritten s s') : resp s' = resp s := by
  have hrxlen : s'.rxlen = s.rxlen := by rw [h.rest]
  have hbytes : s'.rxb.toList.take s.rxlen.toNat = s.rxb.toList.take s.rxlen.toNat := by
    apply List.ext_getElem?
    intro i
    by_cases hi : i < s.rxlen.toNat
    · simpa [hi] using h.rxb i hi
    · simp [hi]
  simp [resp, memRead, hrxlen, hbytes]

theorem SameWritten.choose_eq {s' : State} (h : SameWritten s s') : choose s' = choose s := by
  have hresp := h.resp_eq
  rw [h.rest] at hresp ⊢
  exact choose_congr rfl rfl rfl rfl rfl rfl hresp

/-- The state with other values in the elements that may hold none. -/
def State.withUnwritten (s : State) (a : Nat) (ok res : Bool) (v : Vector Byte 9) : State :=
  { s with startTime := a, allok := ok, res := res, rxb := v }

variable {a : Nat} {ok res : Bool} {v : Vector Byte 9}

theorem respVerdict_withUnwritten (h : SameWritten s (s.withUnwritten a ok res v)) :
    respVerdict (s.withUnwritten a ok res v) = respVerdict s := by
  rw [respVerdict, h.resp_eq, respVerdict]

/-- From PL.ITER's end on, START_TIME and ALLOK are written (R28, R33). -/
theorem SameWritten.eq_of_later {c : SeqCode} (h : SameWritten s (s.withUnwritten a ok res v)) (hseq : s.seq = c)
    (hc : sIter < c) : a = s.startTime ∧ ok = s.allok := by
  subst hseq
  refine ⟨h.startTime fun h0 => ?_, h.allok hc⟩
  rw [h0] at hc
  exact absurd hc (by decide)

theorem toNat_succ_of_lt_nine {n : Index} (h : n < 9#4) : (n + 1).toNat = n.toNat + 1 := by
  have hlt : n.toNat < 9 := h
  exact BitVec.toNat_add_of_lt (show n.toNat + 1 < 16 by omega)

/-- After the same byte is stored at RXLEN, two buffers agree up to the new RXLEN if they did up to the old one. -/
theorem set_agree {w : Vector Byte 9} {n : Index} {b : Byte} (hn : n.toNat < 9)
    (h : ∀ i, i < n.toNat → v[i]? = w[i]?) (i : Nat) (hi : i < (n + 1).toNat) :
    (v.set n.toNat b hn)[i]? = (w.set n.toNat b hn)[i]? := by
  rw [toNat_succ_of_lt_nine hn] at hi
  obtain rfl | hlow := Nat.eq_or_lt_of_le (Nat.le_of_lt_succ hi)
  · simp
  · simpa [hlow.ne'] using h i hlow

/-- Each rule has the same premises where only elements without a value differ, and gives two states alike: what it reads of
them is written by then, and what it leaves unwritten may go on differing. The five parts of SameWritten are, in order: the
rest of the state, START_TIME, ALLOK, RES and RXB. -/
theorem Runs.alike (h : SameWritten s (s.withUnwritten a ok res v)) (hruns : Runs s i r) :
    ∃ r', Runs (s.withUnwritten a ok res v) i r' ∧ Alike r r' := by
  have hverdict := respVerdict_withUnwritten h
  cases hruns with
  | plStart hseq hnow =>
    exact ⟨_, .plStart hseq hnow, .next ⟨rfl, fun _ => rfl, nofun, nofun, h.rxb⟩⟩
  | plWaitFirst hseq hiter =>
    have hstart : a = s.startTime := h.startTime (hseq ▸ by decide)
    exact ⟨_, .plWaitFirst hseq hiter, .next ⟨rfl, fun _ => hstart, nofun, nofun, h.rxb⟩⟩
  | plWaitLater hseq hiter htick =>
    have hstart : a = s.startTime := h.startTime (hseq ▸ by decide)
    exact ⟨_, .plWaitLater hseq hiter htick, .next ⟨rfl, fun _ => hstart, nofun, nofun, h.rxb⟩⟩
  | plIter hseq hlt hnow =>
    obtain rfl : a = s.startTime := h.startTime (hseq ▸ by decide)
    exact ⟨_, .plIter hseq hlt hnow, .next ⟨rfl, fun _ => rfl, fun _ => rfl, nofun, h.rxb⟩⟩
  | plIterTop hseq htop => exact ⟨_, .plIterTop hseq htop, .fault⟩
  | rdBegin hseq hrd hlt =>
    obtain ⟨rfl, rfl⟩ := h.eq_of_later hseq (by decide)
    have hempty : ∀ i, i < (0 : Index).toNat → v[i]? = s.rxb[i]? := nofun
    exact ⟨_, .rdBegin hseq hrd hlt, .next ⟨rfl, fun _ => rfl, fun _ => rfl, nofun, hempty⟩⟩
  | rdBeginTop hseq hrd htop => exact ⟨_, .rdBeginTop hseq hrd htop, .fault⟩
  | plCallx hseq hrd hext =>
    obtain ⟨rfl, rfl⟩ := h.eq_of_later hseq (by decide)
    exact ⟨_, .plCallx hseq hrd hext, .next ⟨rfl, fun _ => rfl, fun _ => rfl, fun _ => rfl, h.rxb⟩⟩
  | rdTxb hseq htxi htx =>
    obtain ⟨rfl, rfl⟩ := h.eq_of_later hseq (by decide)
    have hne : (if s.txi + 1 = 9#4 then sRx else sTx) ≠ sCollect := by split_ifs <;> decide
    exact ⟨_, .rdTxb hseq htxi htx, .next ⟨rfl, fun _ => rfl, fun _ => rfl, fun hc => absurd hc hne, h.rxb⟩⟩
  | rdFaultTx hseq htxi htx hlt =>
    obtain ⟨rfl, rfl⟩ := h.eq_of_later hseq (by decide)
    exact ⟨_, .rdFaultTx hseq htxi htx hlt, .next ⟨rfl, fun _ => rfl, fun _ => rfl, fun _ => rfl, h.rxb⟩⟩
  | rdFaultTxTop hseq htxi htx htop => exact ⟨_, .rdFaultTxTop hseq htxi htx htop, .fault⟩
  | rdRxb hlt hseq hrxlen hrx =>
    obtain ⟨rfl, rfl⟩ := h.eq_of_later hseq (by decide)
    exact ⟨_, .rdRxb (s := s.withUnwritten _ _ res v) hlt hseq hrxlen hrx, .next ⟨rfl, fun _ => rfl, fun _ => rfl,
      fun hc => absurd (hseq.symm.trans hc) (by decide), set_agree hlt h.rxb⟩⟩
  | rdRxendFull hseq hfull =>
    obtain ⟨rfl, rfl⟩ := h.eq_of_later hseq (by decide)
    exact ⟨_, .rdRxendFull hseq hfull, .next ⟨rfl, fun _ => rfl, fun _ => rfl, nofun, h.rxb⟩⟩
  | rdRxendTimeout hseq hrxlen hrx =>
    obtain ⟨rfl, rfl⟩ := h.eq_of_later hseq (by decide)
    exact ⟨_, .rdRxendTimeout hseq hrxlen hrx, .next ⟨rfl, fun _ => rfl, fun _ => rfl, nofun, h.rxb⟩⟩
  | rdFaultRx hseq hrxlen hrx hlt =>
    obtain ⟨rfl, rfl⟩ := h.eq_of_later hseq (by decide)
    exact ⟨_, .rdFaultRx hseq hrxlen hrx hlt, .next ⟨rfl, fun _ => rfl, fun _ => rfl, fun _ => rfl, h.rxb⟩⟩
  | rdFaultRxTop hseq hrxlen hrx htop => exact ⟨_, .rdFaultRxTop hseq hrxlen hrx htop, .fault⟩
  | rdChkok hseq hok hread =>
    obtain ⟨rfl, rfl⟩ := h.eq_of_later hseq (by decide)
    exact ⟨_, .rdChkok hseq (hverdict.trans hok) (h.resp_eq.symm ▸ hread),
      .next ⟨rfl, fun _ => rfl, fun _ => rfl, fun _ => rfl, h.rxb⟩⟩
  | rdChkfail hseq hw hf hlt =>
    obtain ⟨rfl, rfl⟩ := h.eq_of_later hseq (by decide)
    exact ⟨_, .rdChkfail hseq (hverdict.trans hw) hf hlt, .next ⟨rfl, fun _ => rfl, fun _ => rfl, fun _ => rfl, h.rxb⟩⟩
  | rdChkfailTop hseq hw hf htop => exact ⟨_, .rdChkfailTop hseq (hverdict.trans hw) hf htop, .fault⟩
  | plCollect hseq =>
    obtain ⟨rfl, rfl⟩ := h.eq_of_later hseq (by decide)
    obtain rfl : res = s.res := h.res hseq
    exact ⟨_, .plCollect hseq, .next ⟨rfl, fun _ => rfl, fun _ => rfl, fun _ => rfl, h.rxb⟩⟩
  | plTally hseq hne =>
    obtain ⟨rfl, rfl⟩ := h.eq_of_later hseq (by decide)
    exact ⟨_, .plTally hseq hne, .next ⟨rfl, fun _ => rfl, fun _ => rfl, nofun, h.rxb⟩⟩
  | plTallyStop hseq hstop =>
    obtain ⟨rfl, rfl⟩ := h.eq_of_later hseq (by decide)
    exact ⟨_, .plTallyStop hseq hstop, .next ⟨rfl, fun _ => rfl, fun _ => rfl, nofun, h.rxb⟩⟩
  | plHalt hseq => exact ⟨_, .plHalt hseq, .next h⟩

theorem SameWritten.refl (s : State) : SameWritten s s := ⟨rfl, fun _ => rfl, fun _ => rfl, fun _ => rfl, fun _ _ => rfl⟩

/-- Two states that agree on what is written step alike: the selection is the same, and so is each rule. -/
theorem step_alike {s' : State} (h : SameWritten s s') : Alike (step s) (step s') := by
  have hchoose := h.choose_eq
  obtain ⟨a, ok, res, v, rfl⟩ : ∃ a ok res v, s' = s.withUnwritten a ok res v := ⟨_, _, _, _, h.rest⟩
  cases hreset : s.resetReq with
  | true =>
    rw [step_of_reset hreset, step_of_reset (s := s.withUnwritten a ok res v) hreset]
    exact .next (.refl _)
  | false =>
    have hreset' : (s.withUnwritten a ok res v).resetReq = false := hreset
    cases hlegal : s.params.legal with
    | false =>
      rw [step_of_not_legal hreset hlegal, step_of_not_legal hreset' hlegal]
      exact .refused
    | true =>
      cases hc : choose s with
      | run i =>
        obtain ⟨r', hruns', halike⟩ := Runs.alike h (runs_iff.mpr ⟨(choose_run hc).2, rfl⟩)
        rwa [step_of_run hreset hlegal hc, hruns'.step_eq hreset' hlegal]
      | held =>
        rw [step_of_held hreset hlegal hc, step_of_held hreset' hlegal (hchoose.trans hc)]
        exact .next h
      | badSeq =>
        rw [step_of_badSeq hreset hlegal hc, step_of_badSeq hreset' hlegal (hchoose.trans hc)]
        exact .refused
      | illegal =>
        rw [step_of_illegal hreset hlegal hc, step_of_illegal hreset' hlegal (hchoose.trans hc)]
        exact .refused

/-- Settles O57: the two steps are alike, whichever of the three outcomes the first one has. -/
theorem unwrittenElementsAreNeverRead : Obligations.UnwrittenElementsAreNeverRead := by
  intro s s' h
  have halike := step_alike h
  refine ⟨fun t hs => ?next, fun f hs => ?fault, fun q hs => ?refused⟩
  all_goals
    rw [hs] at halike
    generalize step s' = r' at halike
    cases halike
  case next hsame => exact ⟨_, rfl, hsame⟩
  case fault => rfl
  case refused => rfl

end Sys2Proof.Machine

/-! PROOFS. The invariant (10_state.md section 7): where the carbon reader stands, then what each rule keeps. -/

namespace Sys2Proof.Machine

variable {s t : State} {i : Instr} {r : Result}

/-! ## The carbon reader's place -/

/-- The legal parameters as propositions (R6, R182). -/
theorem Params.legal_iff {p : Params} :
    p.legal = true ↔ 1 ≤ p.maxFails ∧ p.maxFails < 2 ^ p.failW ∧ p.readers.count .carbon = 1 := by
  simp [Params.legal, and_assoc]

variable {p : Params} {k : Nat}

theorem carbonIndex_lt (hlegal : p.legal = true) : p.carbonIndex < p.nReaders := by
  obtain ⟨-, -, hone⟩ := Params.legal_iff.mp hlegal
  have hmem : Reader.carbon ∈ p.readers := List.count_pos_iff.mp (hone ▸ Nat.one_pos)
  exact List.findIdx_lt_length_of_exists ⟨_, hmem, by simp⟩

theorem reader_carbonIndex (hlegal : p.legal = true) : p.readers[p.carbonIndex]? = some .carbon := by
  have hlt := carbonIndex_lt hlegal
  have hcarbon : p.readers[p.carbonIndex] = .carbon := of_decide_eq_true (List.findIdx_getElem (w := hlt))
  rw [List.getElem?_eq_getElem hlt, hcarbon]

/-- Of two places of one value in a list that holds it once, the later one is not later. -/
theorem not_lt_of_count_eq_one {l : List Reader} {a : Reader} {j k : Nat} (hone : l.count a = 1)
    (hj : l[j]? = some a) (hk : l[k]? = some a) : ¬j < k := by
  intro hlt
  have htake : 0 < (l.take k).count a :=
    List.count_pos_iff.mpr (List.mem_of_getElem? (by rw [List.getElem?_take_of_lt hlt, hj]))
  have hdrop : 0 < (l.drop k).count a :=
    List.count_pos_iff.mpr (List.mem_of_getElem? (i := 0) (by rw [List.getElem?_drop, Nat.add_zero, hk]))
  have hsum : (l.take k).count a + (l.drop k).count a = 1 := by rw [← List.count_append, List.take_append_drop, hone]
  omega

/-- READERS has one carbon entry, so an index of one is the index (R6, R111). -/
theorem eq_carbonIndex (hlegal : p.legal = true) (hk : p.readers[k]? = some .carbon) : k = p.carbonIndex := by
  obtain ⟨-, -, hone⟩ := Params.legal_iff.mp hlegal
  have hcarbon := reader_carbonIndex hlegal
  have hle := not_lt_of_count_eq_one hone hk hcarbon
  have hge := not_lt_of_count_eq_one hone hcarbon hk
  omega

theorem ne_carbonIndex {j : Nat} (hlegal : p.legal = true) (hk : p.readers[k]? = some (.ext j)) : k ≠ p.carbonIndex := by
  rintro rfl
  cases hk.symm.trans (reader_carbonIndex hlegal)

/-! ## The carbon read owed (R40 e) -/

theorem carbonDue_of_call (hseq : s.seq = sCall) : carbonDue s = if s.sidx ≤ s.params.carbonIndex then 1 else 0 := by
  simp [carbonDue, hseq, sCall, sCollect]

theorem carbonDue_of_collect (hseq : s.seq = sCollect) :
    carbonDue s = if s.sidx < s.params.carbonIndex then 1 else 0 := by
  simp [carbonDue, hseq, sCall, sCollect]

theorem carbonDue_of_ne (hcall : s.seq ≠ sCall) (hcollect : s.seq ≠ sCollect) : carbonDue s = 0 := by
  simp [carbonDue, hcall, hcollect]

theorem inRefresh_iff : inRefresh s = true ↔ s.seq = sTx ∨ s.seq = sRx ∨ s.seq = sCheck := by
  simp [inRefresh, or_assoc]

/-! ## What a good state gives -/

/-- Outside S_CALL and S_COLLECT every counted iteration has had its carbon read. -/
theorem Inv.reads_eq_iter (h : Inv s) (hcall : s.seq ≠ sCall) (hcollect : s.seq ≠ sCollect) : s.reads = s.iter := by
  simpa [carbonDue_of_ne hcall hcollect] using h.readsIter

theorem readsIter_of_ne (hcall : s.seq ≠ sCall) (hcollect : s.seq ≠ sCollect) (hreads : s.reads = s.iter) :
    s.reads + carbonDue s = s.iter := by
  rw [carbonDue_of_ne hcall hcollect, hreads, Nat.add_zero]

theorem Inv.failcnt_ne (h : Inv s) (hseq : s.seq ≠ sStopped) : s.failcnt ≠ s.params.maxFails := mt h.failStop.mp hseq

/-! ## What the rules keep -/

/-- The state after reset is good under all legal parameters, whatever answers stand ready. -/
theorem inv_resetWith (hlegal : p.legal = true) (e : Env) (d : Nat) :
    Inv { State.resetWith p with env := e, draws := d } where
  params := hlegal
  seqLegal := (by decide : sStarting ≤ sStopped)
  rxlen := (by decide : (0 : Index) ≤ 9#4)
  txi := (by decide : (0 : Index) ≤ 9#4)
  txRoom := nofun
  sidxCall := nofun
  sidxRefresh := nofun
  failMax := Nat.zero_le _
  failStop := iff_of_false (Nat.ne_of_lt (Params.legal_iff.mp hlegal).1) nofun
  failIter := le_rfl
  failRunning := nofun
  readsIter := readsIter_of_ne nofun nofun rfl
  errsReads := le_rfl
  errsRefresh := nofun
  ppmUnset _ := rfl
  iterWidth := Nat.two_pow_pos _
  readsWidth := Nat.two_pow_pos _
  uptimeWidth := Nat.two_pow_pos _
  startWidth h := absurd rfl h
  stopReport := nofun

theorem Inv.plStart (h : Inv s) (hseq : s.seq = sStarting) {v d : Nat} {o : List Event} {e : Env}
    (hv : v < 2 ^ s.params.timeW) :
    Inv { s with startTime := v, out := o, seq := sWait, draws := d, env := e } :=
  { h with
    seqLegal := (by decide : sWait ≤ sStopped)
    txRoom := nofun
    sidxCall := nofun
    sidxRefresh := nofun
    failStop := iff_of_false (h.failcnt_ne (hseq ▸ nofun)) nofun
    failRunning := nofun
    readsIter := readsIter_of_ne nofun nofun (h.reads_eq_iter (hseq ▸ nofun) (hseq ▸ nofun))
    errsRefresh := nofun
    startWidth := fun _ => hv
    stopReport := nofun }

theorem Inv.plWait (h : Inv s) (hseq : s.seq = sWait) {e : Env} : Inv { s with seq := sIter, env := e } :=
  { h with
    seqLegal := (by decide : sIter ≤ sStopped)
    txRoom := nofun
    sidxCall := nofun
    sidxRefresh := nofun
    failStop := iff_of_false (h.failcnt_ne (hseq ▸ nofun)) nofun
    failRunning := nofun
    readsIter := readsIter_of_ne nofun nofun (h.reads_eq_iter (hseq ▸ nofun) (hseq ▸ nofun))
    errsRefresh := nofun
    startWidth := fun _ => h.startWidth (hseq ▸ nofun)
    stopReport := nofun }

theorem Inv.plIter (h : Inv s) (hseq : s.seq = sIter) (hlt : s.iter + 1 < 2 ^ s.params.iterW) {u d : Nat}
    {o : List Event} {e : Env} (hu : u < 2 ^ s.params.timeW) :
    Inv { s with
      iter := s.iter + 1, uptime := u, out := o, allok := true, sidx := 0, seq := sCall, draws := d, env := e } :=
  { h with
    seqLegal := (by decide : sCall ≤ sStopped)
    txRoom := nofun
    sidxCall := fun _ => Nat.zero_lt_of_lt (carbonIndex_lt h.params)
    sidxRefresh := nofun
    failStop := iff_of_false (h.failcnt_ne (hseq ▸ nofun)) nofun
    failIter := Nat.le_succ_of_le h.failIter
    failRunning := fun _ _ => Nat.lt_succ_of_le h.failIter
    readsIter := by
      rw [carbonDue_of_call rfl, if_pos (Nat.zero_le _)]
      exact congrArg (· + 1) (h.reads_eq_iter (hseq ▸ nofun) (hseq ▸ nofun))
    errsRefresh := nofun
    iterWidth := hlt
    uptimeWidth := hu
    startWidth := fun _ => h.startWidth (hseq ▸ nofun)
    stopReport := nofun }

theorem Inv.rdBegin (h : Inv s) (hseq : s.seq = sCall) (hrd : currentReader s = some .carbon)
    (hlt : s.reads + 1 < 2 ^ s.params.cntW) {o : List Event} :
    Inv { s with reads := s.reads + 1, out := o, txi := 0, rxlen := 0, seq := sTx } :=
  have hidx : s.sidx = s.params.carbonIndex := eq_carbonIndex h.params hrd
  { h with
    seqLegal := (by decide : sTx ≤ sStopped)
    rxlen := (by decide : (0 : Index) ≤ 9#4)
    txi := (by decide : (0 : Index) ≤ 9#4)
    txRoom := fun _ => (by decide : (0 : Index) < 9#4)
    sidxCall := nofun
    sidxRefresh := fun _ => hidx
    failStop := iff_of_false (h.failcnt_ne (hseq ▸ nofun)) nofun
    failRunning := fun _ _ => h.failRunning (hseq ▸ by decide) (hseq ▸ by decide)
    readsIter := readsIter_of_ne nofun nofun <| by
      simpa [carbonDue_of_call hseq, hidx] using h.readsIter
    errsReads := Nat.le_succ_of_le h.errsReads
    errsRefresh := fun _ => Nat.lt_succ_of_le h.errsReads
    readsWidth := hlt
    startWidth := fun _ => h.startWidth (hseq ▸ nofun)
    stopReport := nofun }

/-- An external reader is not at the carbon reader's place, so what is owed in S_CALL is owed in S_COLLECT. -/
theorem Inv.plCallx (h : Inv s) (hseq : s.seq = sCall) {k : Nat} (hrd : currentReader s = some (.ext k)) {b : Bool}
    {e : Env} : Inv { s with res := b, seq := sCollect, env := e } :=
  have hidx : s.sidx ≠ s.params.carbonIndex := ne_carbonIndex h.params hrd
  { h with
    seqLegal := (by decide : sCollect ≤ sStopped)
    txRoom := nofun
    sidxCall := fun _ => h.sidxCall (.inl hseq)
    sidxRefresh := nofun
    failStop := iff_of_false (h.failcnt_ne (hseq ▸ nofun)) nofun
    failRunning := fun _ _ => h.failRunning (hseq ▸ by decide) (hseq ▸ by decide)
    readsIter := by
      rw [carbonDue_of_collect rfl]
      simpa [carbonDue_of_call hseq, hidx.le_iff_lt] using h.readsIter
    errsRefresh := nofun
    startWidth := fun _ => h.startWidth (hseq ▸ nofun)
    stopReport := nofun }

/-- The codes of a refresh lie between S_ITER and S_STOPPED. -/
theorem seq_of_inRefresh (h : inRefresh s = true) : s.seq ≠ sStarting ∧ sIter < s.seq ∧ s.seq < sStopped ∧
    s.seq ≠ sStopped ∧ s.seq ≠ sCall ∧ s.seq ≠ sCollect := by
  obtain hseq | hseq | hseq := inRefresh_iff.mp h <;> rw [hseq] <;> decide

/-- A step inside a refresh. -/
theorem Inv.refreshMoves (h : Inv s) (hs : inRefresh s = true) {c : SeqCode} (hc : c = sTx ∨ c = sRx ∨ c = sCheck)
    {x n : Index} {v : Vector Byte 9} {o : List Event} {e : Env} (hx : x ≤ 9#4) (hroom : c = sTx → x < 9#4)
    (hn : n ≤ 9#4) : Inv { s with seq := c, txi := x, rxlen := n, rxb := v, out := o, env := e } := by
  obtain ⟨hstart, hlow, hhigh, hstop, hcall, hcollect⟩ := seq_of_inRefresh hs
  have hreads := h.reads_eq_iter hcall hcollect
  have hfail := h.failcnt_ne hstop
  have hlegal : c ≤ sStopped := by obtain rfl | rfl | rfl := hc <;> decide
  obtain rfl | rfl | rfl := hc
  all_goals exact { h with
    seqLegal := hlegal
    rxlen := hn
    txi := hx
    txRoom := hroom
    sidxCall := nofun
    sidxRefresh := fun _ => h.sidxRefresh hs
    failStop := iff_of_false hfail nofun
    failRunning := fun _ _ => h.failRunning hlow hhigh
    readsIter := readsIter_of_ne nofun nofun hreads
    errsRefresh := fun _ => h.errsRefresh hs
    startWidth := fun _ => h.startWidth hstart
    stopReport := nofun }

/-- The end of a refresh, with at most one error more than before: the read was counted, and nothing is owed. -/
theorem Inv.refreshEnds (h : Inv s) (hs : inRefresh s = true) {n : Nat} {b pv : Bool} {w : Reading} {o : List Event}
    {e : Env} (hn : n ≤ s.reads) (hw : pv = false → w = 0) : Inv { s with
      readErrs := n, ppm := w, ppmValid := pv, res := b, seq := sCollect, out := o, env := e } :=
  have ⟨hstart, hlow, hhigh, hstop, hcall, hcollect⟩ := seq_of_inRefresh hs
  have hidx : s.sidx = s.params.carbonIndex := h.sidxRefresh hs
  { h with
    seqLegal := (by decide : sCollect ≤ sStopped)
    txRoom := nofun
    sidxCall := fun _ => hidx ▸ carbonIndex_lt h.params
    sidxRefresh := nofun
    failStop := iff_of_false (h.failcnt_ne hstop) nofun
    failRunning := fun _ _ => h.failRunning hlow hhigh
    readsIter := by
      rw [carbonDue_of_collect rfl, if_neg (hidx ▸ lt_irrefl _)]
      exact h.reads_eq_iter hcall hcollect
    errsReads := hn
    errsRefresh := nofun
    ppmUnset := hw
    startWidth := fun _ => h.startWidth hstart
    stopReport := nofun }

/-- Collecting a reader that is not the last: what was owed beyond it is owed at the next. -/
theorem Inv.plCollect_call (h : Inv s) (hseq : s.seq = sCollect) (hmore : s.sidx + 1 ≠ s.params.nReaders) {b : Bool} :
    Inv { s with allok := b, sidx := s.sidx + 1, seq := sCall } :=
  { h with
    seqLegal := (by decide : sCall ≤ sStopped)
    txRoom := nofun
    sidxCall := fun _ => Nat.lt_of_le_of_ne (h.sidxCall (.inr hseq)) hmore
    sidxRefresh := nofun
    failStop := iff_of_false (h.failcnt_ne (hseq ▸ nofun)) nofun
    failRunning := fun _ _ => h.failRunning (hseq ▸ by decide) (hseq ▸ by decide)
    readsIter := by
      rw [carbonDue_of_call rfl]
      simpa [carbonDue_of_collect hseq, Nat.succ_le_iff] using h.readsIter
    errsRefresh := nofun
    startWidth := fun _ => h.startWidth (hseq ▸ nofun)
    stopReport := nofun }

/-- Collecting the last reader: the carbon reader is not beyond it, so nothing is owed. -/
theorem Inv.plCollect_tally (h : Inv s) (hseq : s.seq = sCollect) (hlast : s.sidx + 1 = s.params.nReaders) {b : Bool} :
    Inv { s with allok := b, sidx := s.sidx + 1, seq := sTally } :=
  have hidx : ¬s.sidx < s.params.carbonIndex := by
    have hlt := carbonIndex_lt h.params
    omega
  { h with
    seqLegal := (by decide : sTally ≤ sStopped)
    txRoom := nofun
    sidxCall := nofun
    sidxRefresh := nofun
    failStop := iff_of_false (h.failcnt_ne (hseq ▸ nofun)) nofun
    failRunning := fun _ _ => h.failRunning (hseq ▸ by decide) (hseq ▸ by decide)
    readsIter := readsIter_of_ne nofun nofun <| by
      simpa [carbonDue_of_collect hseq, hidx] using h.readsIter
    errsRefresh := nofun
    startWidth := fun _ => h.startWidth (hseq ▸ nofun)
    stopReport := nofun }

/-- FAILCNT grows by one at most (R136). -/
theorem tallied_le (s : State) : tallied s ≤ s.failcnt + 1 := by
  unfold tallied
  split_ifs <;> omega

/-- In S_TALLY the new FAILCNT is within the threshold and the iterations counted. -/
theorem Inv.tallied_bounds (h : Inv s) (hseq : s.seq = sTally) :
    tallied s ≤ s.params.maxFails ∧ tallied s ≤ s.iter := by
  have hle := tallied_le s
  have hmax := h.failMax
  have hne := h.failcnt_ne (hseq ▸ nofun)
  have hiter := h.failRunning (hseq ▸ by decide) (hseq ▸ by decide)
  omega

theorem Inv.plTally_wait (h : Inv s) (hseq : s.seq = sTally) (hne : tallied s ≠ s.params.maxFails) :
    Inv { s with failcnt := tallied s, seq := sWait } :=
  have ⟨hmax, hiter⟩ := h.tallied_bounds hseq
  { h with
    seqLegal := (by decide : sWait ≤ sStopped)
    txRoom := nofun
    sidxCall := nofun
    sidxRefresh := nofun
    failMax := hmax
    failStop := iff_of_false hne nofun
    failIter := hiter
    failRunning := nofun
    readsIter := readsIter_of_ne nofun nofun (h.reads_eq_iter (hseq ▸ nofun) (hseq ▸ nofun))
    errsRefresh := nofun
    startWidth := fun _ => h.startWidth (hseq ▸ nofun)
    stopReport := nofun }

theorem Inv.plTally_stop (h : Inv s) (hseq : s.seq = sTally) (hstop : tallied s = s.params.maxFails) :
    Inv { s with failcnt := tallied s, out := s.out ++ [.report s.iter], seq := sStopped } :=
  have ⟨hmax, hiter⟩ := h.tallied_bounds hseq
  { h with
    seqLegal := (by decide : sStopped ≤ sStopped)
    txRoom := nofun
    sidxCall := nofun
    sidxRefresh := nofun
    failMax := hmax
    failStop := iff_of_true hstop rfl
    failIter := hiter
    failRunning := nofun
    readsIter := readsIter_of_ne nofun nofun (h.reads_eq_iter (hseq ▸ nofun) (hseq ▸ nofun))
    errsRefresh := nofun
    startWidth := fun _ => h.startWidth (hseq ▸ nofun)
    stopReport := fun _ => List.getLast?_concat }

theorem succ_le_nine : ∀ n : Index, n < 9#4 → n + 1 ≤ 9#4 := by decide

theorem succ_lt_nine : ∀ n : Index, n < 9#4 → n + 1 ≠ 9#4 → n + 1 < 9#4 := by decide

/-- Every rule that completes keeps the invariant. -/
theorem Runs.keepsInv (h : Inv s) (hruns : Runs s i (.next t)) : Inv t := by
  cases hruns with
  | plStart hseq hnow => exact h.plStart hseq hnow.lt
  | plWaitFirst hseq => exact h.plWait hseq
  | plWaitLater hseq => exact h.plWait hseq
  | plIter hseq hlt => exact h.plIter hseq hlt (timeSince_lt s _)
  | rdBegin hseq hrd hlt => exact h.rdBegin hseq hrd hlt
  | plCallx hseq hrd => exact h.plCallx hseq hrd
  | rdTxb hseq htxi =>
    refine h.refreshMoves (inRefresh_iff.mpr (.inl hseq)) ?code (succ_le_nine _ htxi) ?room h.rxlen
    case code => split_ifs <;> simp
    case room =>
      split_ifs with hnine
      · nofun
      · exact fun _ => succ_lt_nine _ htxi hnine
  | rdRxb hlt hseq hrxlen =>
    exact h.refreshMoves (inRefresh_iff.mpr (.inr (.inl hseq))) (.inr (.inl hseq)) h.txi h.txRoom (succ_le_nine _ hrxlen)
  | rdRxendFull hseq | rdRxendTimeout hseq =>
    exact h.refreshMoves (inRefresh_iff.mpr (.inr (.inl hseq))) (.inr (.inr rfl)) h.txi nofun h.rxlen
  | rdFaultTx hseq =>
    have hs := inRefresh_iff.mpr (.inl hseq)
    exact h.refreshEnds hs (h.errsRefresh hs) h.ppmUnset
  | rdFaultRx hseq =>
    have hs := inRefresh_iff.mpr (.inr (.inl hseq))
    exact h.refreshEnds hs (h.errsRefresh hs) h.ppmUnset
  | rdChkok hseq => exact h.refreshEnds (inRefresh_iff.mpr (.inr (.inr hseq))) h.errsReads nofun
  | rdChkfail hseq =>
    have hs := inRefresh_iff.mpr (.inr (.inr hseq))
    exact h.refreshEnds hs (h.errsRefresh hs) h.ppmUnset
  | plCollect hseq =>
    split_ifs with hlast
    · exact h.plCollect_tally hseq hlast
    · exact h.plCollect_call hseq hlast
  | plTally hseq hne => exact h.plTally_wait hseq hne
  | plTallyStop hseq hstop => exact h.plTally_stop hseq hstop
  | plHalt => exact h

/-- Settles O59. -/
theorem everyStepKeepsTheInvariants : Obligations.EveryStepKeepsTheInvariants := by
  intro s t h hstep
  cases hreset : s.resetReq with
  | true =>
    cases (step_of_reset hreset).symm.trans hstep
    exact inv_resetWith h.params s.env s.draws
  | false =>
    obtain ⟨i, hruns⟩ | ⟨-, rfl⟩ := runs_or_held_of_step_next hreset hstep
    · exact hruns.keepsInv h
    · exact h

/-- Settles O58: the reset state is the one with the default parameters, which are legal. -/
theorem resetStateIsGood : Obligations.ResetStateIsGood :=
  inv_resetWith (p := {}) (by decide) {} 0

/-! ## A good state's step -/

/-- A rule completes or ends in a counter overflow. -/
theorem Runs.next_or_overflow (h : Runs s i r) : (∃ t, r = .next t) ∨ ∃ x, r = .fault (.counterOverflow x) := by
  cases h with
  | plIterTop | rdBeginTop | rdFaultTxTop | rdFaultRxTop | rdChkfailTop => exact .inr ⟨_, rfl⟩
  | _ => exact .inl ⟨_, rfl⟩

/-- The ten legal codes of SEQ (R25). -/
theorem seq_cases : ∀ c : SeqCode, c ≤ sStopped → c = sStarting ∨ c = sWait ∨ c = sIter ∨ c = sCall ∨ c = sTx ∨
    c = sRx ∨ c = sCheck ∨ c = sCollect ∨ c = sTally ∨ c = sStopped := by decide

/-! In a good state an operation is selected, or the block is held: R81 has a row for every answer of a port. First the five
codes that ask for more than SEQ. -/

section

variable (h : Inv s) (hreset : s.resetReq = false)
include h hreset

theorem Inv.wait_enabled_or_held (hseq : s.seq = sWait) : (∃ i, enabled i s = true) ∨ step s = .next s := by
  by_cases hiter : s.iter = 0
  · exact .inl ⟨_, enabled_plWait.mpr ⟨hseq, .inl hiter⟩⟩
  · by_cases htick : s.env.ticks = 0
    · exact .inr ((heldUntilThePortAnswers s hreset h.params).1 hseq hiter htick)
    · exact .inl ⟨_, enabled_plWait.mpr ⟨hseq, .inr htick⟩⟩

theorem Inv.call_enabled_or_held (hseq : s.seq = sCall) : (∃ i, enabled i s = true) ∨ step s = .next s := by
  obtain ⟨-, hheld, -⟩ := heldUntilThePortAnswers s hreset h.params
  obtain ⟨rd, hrd⟩ : ∃ rd, currentReader s = some rd := ⟨_, List.getElem?_eq_getElem (h.sidxCall (.inl hseq))⟩
  cases rd with
  | carbon => exact .inl ⟨_, enabled_rdBegin.mpr ⟨hseq, hrd⟩⟩
  | ext k =>
    cases hext : s.env.ext with
    | nil => exact .inr (hheld k hseq hrd hext)
    | cons b rest => exact .inl ⟨_, enabled_plCallx.mpr ⟨hseq, ⟨k, hrd⟩, b, rest, hext⟩⟩

theorem Inv.tx_enabled_or_held (hseq : s.seq = sTx) : (∃ i, enabled i s = true) ∨ step s = .next s := by
  obtain ⟨-, -, hheld, -⟩ := heldUntilThePortAnswers s hreset h.params
  have htxi := h.txRoom hseq
  match hans : s.env.tx with
  | [] => exact .inr (hheld hseq htxi hans)
  | .accepted :: rest => exact .inl ⟨_, enabled_rdTxb.mpr ⟨hseq, htxi, rest, hans⟩⟩
  | .fault info :: rest => exact .inl ⟨_, enabled_rdFaultTx.mpr ⟨hseq, htxi, info, rest, hans⟩⟩

theorem Inv.rx_enabled_or_held (hseq : s.seq = sRx) : (∃ i, enabled i s = true) ∨ step s = .next s := by
  obtain ⟨-, -, -, hheld⟩ := heldUntilThePortAnswers s hreset h.params
  by_cases hfull : s.rxlen = 9#4
  · exact .inl ⟨_, enabled_rdRxend.mpr ⟨hseq, .inl hfull⟩⟩
  · have hrxlen : s.rxlen < 9#4 := BitVec.lt_of_le_ne h.rxlen hfull
    match hans : s.env.rx with
    | [] => exact .inr (hheld hseq hrxlen hans)
    | .byte b :: rest => exact .inl ⟨_, enabled_rdRxb.mpr ⟨hseq, hrxlen, b, rest, hans⟩⟩
    | .timeout :: rest => exact .inl ⟨_, enabled_rdRxend.mpr ⟨hseq, .inr ⟨hrxlen, rest, hans⟩⟩⟩
    | .fault info :: rest => exact .inl ⟨_, enabled_rdFaultRx.mpr ⟨hseq, hrxlen, info, rest, hans⟩⟩

omit hreset in
theorem Inv.check_enabled (hseq : s.seq = sCheck) : ∃ i, enabled i s = true := by
  have hverdict := respVerdict_of_rxlen_le h.rxlen
  by_cases hok : classifyFrame (s.rxb.toList.take s.rxlen.toNat) = .ok
  · exact ⟨_, enabled_rdChkok.mpr ⟨hseq, hok ▸ hverdict⟩⟩
  · exact ⟨_, enabled_rdChkfail.mpr ⟨hseq, _, hverdict, hok⟩⟩

theorem Inv.enabled_or_held : (∃ i, enabled i s = true) ∨ step s = .next s := by
  obtain hseq | hseq | hseq | hseq | hseq | hseq | hseq | hseq | hseq | hseq := seq_cases s.seq h.seqLegal
  · exact .inl ⟨_, enabled_plStart.mpr hseq⟩
  · exact h.wait_enabled_or_held hreset hseq
  · exact .inl ⟨_, enabled_plIter.mpr hseq⟩
  · exact h.call_enabled_or_held hreset hseq
  · exact h.tx_enabled_or_held hreset hseq
  · exact h.rx_enabled_or_held hreset hseq
  · exact .inl (h.check_enabled hseq)
  · exact .inl ⟨_, enabled_plCollect.mpr hseq⟩
  · exact .inl ⟨_, enabled_plTally.mpr hseq⟩
  · exact .inl ⟨_, enabled_plHalt.mpr hseq⟩

end

/-- Settles O60: a reset completes, a hold changes nothing, and the selected operation has a rule. -/
theorem goodStatesOnlyOverflow : Obligations.GoodStatesOnlyOverflow := by
  intro s h
  cases hreset : s.resetReq with
  | true => exact .inl ⟨_, step_of_reset hreset⟩
  | false =>
    obtain ⟨i, hsel⟩ | hheld := h.enabled_or_held hreset
    · obtain ⟨r, hruns⟩ := exists_runs_of_enabled hsel
      rw [hruns.step_eq hreset h.params]
      exact hruns.next_or_overflow
    · exact .inl ⟨s, hheld⟩

end Sys2Proof.Machine

/-! PROOFS. The port primitives on their own (43_ports.md), RESET, and what every instruction leaves unchanged. -/

namespace Sys2Proof.Machine

variable {s t : State} {i : Instr} {c : SeqCode}

/-! ## The port primitives -/

theorem exec_serTx_accepted {rest : List TxAnswer} (b : Byte) (h : s.env.tx = .accepted :: rest) :
    exec (.serTx b) s = .next { s with
      out := s.out ++ [.tx b], ret := .tx .accepted, env := { s.env with tx := rest } } := by
  rw [exec, execSerTx, takeTx_cons h]
  rfl

theorem exec_serTx_fault {info : FaultInfo} {rest : List TxAnswer} (b : Byte) (h : s.env.tx = .fault info :: rest) :
    exec (.serTx b) s = .next { s with ret := .tx (.fault info), env := { s.env with tx := rest } } := by
  rw [exec, execSerTx, takeTx_cons h]
  rfl

theorem exec_serTx_nil (b : Byte) (h : s.env.tx = []) : exec (.serTx b) s = .next s := by
  rw [exec, execSerTx, takeTx_nil h]

theorem exec_serRx_cons {a : RxAnswer} {rest : List RxAnswer} (h : s.env.rx = a :: rest) :
    exec .serRx s = .next { s with ret := .rx a, env := { s.env with rx := rest } } := by
  rw [exec, execSerRx, takeRx_cons h]
  rfl

theorem exec_serRx_nil (h : s.env.rx = []) : exec .serRx s = .next s := by
  rw [exec, execSerRx, takeRx_nil h]

theorem exec_now {v d : Nat} {q : List Nat} (h : NowAnswers s v d q) :
    exec .now s = .next { s with ret := .time v, draws := d, env := { s.env with now := q } } := by
  rw [exec, execNow, takeNow_of_answers h]
  rfl

theorem exec_intervalWait_succ {n : Nat} (h : s.env.ticks = n + 1) :
    exec .intervalWait s = .next { s with ret := .tick, env := { s.env with ticks := n } } := by
  rw [exec, execIntervalWait, takeTick_succ h]
  rfl

theorem exec_intervalWait_zero (h : s.env.ticks = 0) : exec .intervalWait s = .next s := by
  rw [exec, execIntervalWait, takeTick_zero h]

theorem exec_extRefresh_cons {b : Bool} {rest : List Bool} (k : Nat) (h : s.env.ext = b :: rest) :
    exec (.extRefresh k) s = .next { s with ret := .ext b, env := { s.env with ext := rest } } := by
  rw [exec, execExtRefresh, takeExt_cons h]
  rfl

theorem exec_extRefresh_nil (k : Nat) (h : s.env.ext = []) : exec (.extRefresh k) s = .next s := by
  rw [exec, execExtRefresh, takeExt_nil h]

theorem exec_metricInc (m : Counter) (s : State) : exec (.metricInc m) s = ofExcept (metricInc m s) := rfl

/-- Settles O31. -/
theorem metricIncAddsOneOrFaults : Obligations.MetricIncAddsOneOrFaults := by
  refine fun s => ⟨fun hlt => ?reads, fun hlt => ?readErrs, fun htop => ?readsTop, fun htop => ?readErrsTop⟩
  case reads => rw [exec_metricInc, metricInc_reads hlt, ofExcept_ok]
  case readErrs => rw [exec_metricInc, metricInc_readErrs hlt, ofExcept_ok]
  case readsTop => rw [exec_metricInc, metricInc_reads_top (two_pow_le_succ_of_eq_pred htop), ofExcept_error]
  case readErrsTop => rw [exec_metricInc, metricInc_readErrs_top (two_pow_le_succ_of_eq_pred htop), ofExcept_error]

/-- Settles O32: a value of the gauge's width is its own remainder. -/
theorem metricSetOverwritesTheGauge : Obligations.MetricSetOverwritesTheGauge := by
  refine fun s v => ⟨fun hv => ?uptime, fun hv => ?ppm⟩
  case uptime =>
    change Host.Outcome.next (metricSet .uptime v s) = _
    rw [metricSet_uptime, Nat.mod_eq_of_lt hv]
  case ppm =>
    refine ⟨metricSet .co2Ppm v s, rfl, (BitVec.toNat_ofNat ..).trans (Nat.mod_eq_of_lt hv), ?_⟩
    rw [metricSet_co2Ppm, Nat.mod_eq_of_lt hv]

/-- Settles O33: each of the three is the model's append. -/
theorem logReportEmitAppendOneEvent : Obligations.LogReportEmitAppendOneEvent :=
  fun _ _ _ _ => ⟨rfl, rfl, rfl⟩

/-- Settles O34. -/
theorem serialPrimitivesTakeOneAnswer : Obligations.SerialPrimitivesTakeOneAnswer :=
  fun _ b => ⟨fun _ => exec_serTx_accepted b, fun _ _ => exec_serTx_fault b, fun _ _ => exec_serRx_cons,
    exec_serTx_nil b, exec_serRx_nil⟩

/-- Settles O35. Without a listed answer the empty list stays as it is. -/
theorem timePrimitivesTakeOneAnswer : Obligations.TimePrimitivesTakeOneAnswer := by
  refine fun s => ⟨fun t rest hnow => exec_now (.inl ⟨t, hnow, rfl, rfl⟩), fun hnow => ?free,
    fun _ => exec_intervalWait_succ, exec_intervalWait_zero, fun k _ _ => exec_extRefresh_cons k, exec_extRefresh_nil⟩
  case free => rw [exec_now (.inr ⟨hnow, rfl, rfl, rfl⟩), ← hnow]

/-! ## Reset -/

/-- RESET (R200). -/
theorem exec_reset (s : State) :
    exec .reset s = .next { State.resetWith s.params with env := s.env, draws := s.draws } := rfl

/-- Settles O36. -/
theorem resetRestoresEveryElement : Obligations.ResetRestoresEveryElement :=
  fun s => ⟨_, exec_reset s, rfl, rfl, rfl, rfl, rfl, rfl, rfl, rfl, rfl, rfl, rfl, rfl, rfl, rfl, rfl, rfl, rfl⟩

/-- Settles O37, by evaluating the reset state. -/
theorem resetStateIsTheTable : Obligations.ResetStateIsTheTable :=
  ⟨rfl, rfl, rfl, rfl, rfl, rfl, rfl, rfl, rfl, rfl, rfl, rfl, rfl, rfl, rfl, rfl, rfl, rfl, rfl⟩

/-! ## What a completed primitive changes -/

theorem exec_serTx_next {b : Byte} (h : exec (.serTx b) s = .next t) :
    ∃ o r q, t = { s with out := o, ret := r, env := { s.env with tx := q } } := by
  match htx : s.env.tx with
  | [] =>
    cases (exec_serTx_nil b htx).symm.trans h
    exact ⟨s.out, s.ret, s.env.tx, rfl⟩
  | .accepted :: rest =>
    cases (exec_serTx_accepted b htx).symm.trans h
    exact ⟨_, _, rest, rfl⟩
  | .fault info :: rest =>
    cases (exec_serTx_fault b htx).symm.trans h
    exact ⟨s.out, _, rest, rfl⟩

theorem exec_serRx_next (h : exec .serRx s = .next t) : ∃ r q, t = { s with ret := r, env := { s.env with rx := q } } := by
  match hrx : s.env.rx with
  | [] =>
    cases (exec_serRx_nil hrx).symm.trans h
    exact ⟨s.ret, s.env.rx, rfl⟩
  | a :: rest =>
    cases (exec_serRx_cons hrx).symm.trans h
    exact ⟨_, rest, rfl⟩

theorem exec_now_next (h : exec .now s = .next t) :
    ∃ r d q, t = { s with ret := r, draws := d, env := { s.env with now := q } } := by
  obtain ⟨v, d, q, hnow⟩ := exists_nowAnswers s
  cases (exec_now hnow).symm.trans h
  exact ⟨_, d, q, rfl⟩

theorem exec_intervalWait_next (h : exec .intervalWait s = .next t) :
    ∃ r n, t = { s with ret := r, env := { s.env with ticks := n } } := by
  match htick : s.env.ticks with
  | 0 =>
    cases (exec_intervalWait_zero htick).symm.trans h
    exact ⟨s.ret, s.env.ticks, rfl⟩
  | n + 1 =>
    cases (exec_intervalWait_succ htick).symm.trans h
    exact ⟨_, n, rfl⟩

theorem exec_extRefresh_next {k : Nat} (h : exec (.extRefresh k) s = .next t) :
    ∃ r q, t = { s with ret := r, env := { s.env with ext := q } } := by
  match hext : s.env.ext with
  | [] =>
    cases (exec_extRefresh_nil k hext).symm.trans h
    exact ⟨s.ret, s.env.ext, rfl⟩
  | b :: rest =>
    cases (exec_extRefresh_cons k hext).symm.trans h
    exact ⟨_, rest, rfl⟩

/-- A counter's increment leaves the other counter alone (R153). -/
theorem exec_metricInc_next {m : Counter} (h : exec (.metricInc m) s = .next t) :
    ∃ n e o, t = { s with reads := n, readErrs := e, out := o } ∧ (m = .reads → e = s.readErrs) ∧
      (m = .readErrs → n = s.reads) := by
  obtain ⟨t', hok, heq, hreads, herrs⟩ | ⟨x, hfault⟩ := metricInc_cases m s
  · cases hok.symm.trans (ofExcept_next h)
    exact ⟨t.reads, t.readErrs, _, heq, by rintro rfl; simpa using herrs, by rintro rfl; simpa using hreads⟩
  · cases hfault.symm.trans (ofExcept_next h)

/-- A gauge's overwriting leaves the other gauge alone (R154). -/
theorem exec_metricSet_next {g : Gauge} {v : Nat} (h : exec (.metricSet g v) s = .next t) :
    ∃ u p o, t = { s with uptime := u, ppm := p, out := o } ∧ (g = .uptime → p = s.ppm) ∧
      (g = .co2Ppm → u = s.uptime) := by
  cases h
  cases g with
  | uptime => exact ⟨_, s.ppm, _, metricSet_uptime v s, fun _ => rfl, nofun⟩
  | co2Ppm => exact ⟨s.uptime, _, _, metricSet_co2Ppm v s, nofun, fun _ => rfl⟩

/-- Settles O48. -/
theorem portFrame : Obligations.PortFrame := by
  refine fun s t b m g v k n e ev => ⟨fun h => ?serTx, fun h => ?serRx, fun h => ?metricInc, fun h => ?metricSet,
    fun h => ?log, fun h => ?now, fun h => ?intervalWait, fun h => ?extRefresh, fun h => ?report, fun h => ?emit⟩
  case serTx => obtain ⟨o, r, q, rfl⟩ := exec_serTx_next h; rfl
  case serRx => obtain ⟨r, q, rfl⟩ := exec_serRx_next h; rfl
  case metricInc => obtain ⟨n, e, o, rfl, hreads, herrs⟩ := exec_metricInc_next h; exact ⟨rfl, hreads, herrs⟩
  case metricSet => obtain ⟨u, p, o, rfl, huptime, hppm⟩ := exec_metricSet_next h; exact ⟨rfl, huptime, hppm⟩
  case now => obtain ⟨r, d, q, rfl⟩ := exec_now_next h; rfl
  case intervalWait => obtain ⟨r, n, rfl⟩ := exec_intervalWait_next h; rfl
  case extRefresh => obtain ⟨r, q, rfl⟩ := exec_extRefresh_next h; rfl
  case log => cases h; rfl
  case report => cases h; rfl
  case emit => cases h; rfl

/-! ## The codec -/

theorem decodeOf_next {body : Frame} (h : decodeOf body s = .next t) : ∃ r, t = s.setRet r := by
  cases (decodeOf_of_valid body s (valid_of_decodeOf_next h)).symm.trans h
  exact ⟨_, rfl⟩

/-- The codec's functions give a value and write nothing (R99). -/
theorem exec_codec_next (hcodec : isCodec i = true) (h : exec i s = .next t) : ∃ r, t = s.setRet r := by
  cases i with
  | buildreq | classify | validate => cases h; exact ⟨_, rfl⟩
  | decode4 | decode5 | decode6 | decode7 | decode8 | decode9 => exact decodeOf_next h
  | chksum r =>
    obtain hlen | hlen := Nat.lt_or_ge r.length 2
    · cases (exec_chksum_of_lt_two hlen s).symm.trans h
    · cases (exec_chksum_of_two_le hlen s).symm.trans h
      exact ⟨_, rfl⟩
  | _ => cases hcodec

/-- Settles O45. -/
theorem codecFrame : Obligations.CodecFrame := by
  intro i s t hcodec h
  obtain ⟨r, rfl⟩ := exec_codec_next hcodec h
  rfl

/-! ## The sequencer's operations -/

/-- An operation with a code of SEQ completes by one of its rules only, being refused where it is not selected. -/
theorem runs_of_exec_next (hcode : encode i = .seq c) (h : exec i s = .next t) : Runs s i (.next t) := by
  cases hsel : enabled i s with
  | true => exact runs_iff.mpr ⟨hsel, h⟩
  | false => cases (unselectedOperationIsRefused i s c hcode hsel).symm.trans h

/-- Settles O46, by the rules of each operation. -/
theorem pollFrame : Obligations.PollFrame := by
  refine fun s t => ⟨fun h => ?_, fun h => ?_, fun h => ?_, fun h => ?_, fun h => ?_, fun h => ?_, fun h => ?_⟩
  all_goals cases runs_of_exec_next rfl h
  all_goals rfl

/-- Settles O47, by the rules of each operation; RD.RXB's one store leaves the other bytes. -/
theorem readerFrame : Obligations.ReaderFrame := by
  refine fun s t => ⟨fun h => ?_, fun h => ?_, fun h => ?rdRxb, fun h => ?_, fun h => ?_, fun h => ?_, fun h => ?_,
    fun h => ?_⟩
  case rdRxb =>
    cases runs_of_exec_next rfl h with
    | rdRxb hlt => exact ⟨rfl, fun a ha => by simp [Ne.symm (show a ≠ s.rxlen.toNat from ha)]⟩
  all_goals cases runs_of_exec_next rfl h
  all_goals rfl

/-- Settles O49: the codec writes no element, a rule of the sequencer writes its operation's own, and a port primitive its
register or OUT. -/
theorem everyElementHasItsWriters : Obligations.EveryElementHasItsWriters := by
  intro i s t h hreset
  by_cases hcodec : isCodec i = true
  · obtain ⟨r, rfl⟩ := exec_codec_next hcodec h
    simp
  by_cases hcode : ∃ c, encode i = .seq c
  · obtain ⟨c, hc⟩ := hcode
    cases runs_of_exec_next hc h <;> simp [encode, appends]
  cases i with
  | serTx => obtain ⟨o, r, q, rfl⟩ := exec_serTx_next h; simp [appends]
  | serRx => obtain ⟨r, q, rfl⟩ := exec_serRx_next h; simp
  | metricInc m =>
    obtain ⟨n, e, o, rfl, hreads, herrs⟩ := exec_metricInc_next h
    cases m <;> simp_all [appends]
  | metricSet g =>
    obtain ⟨u, p, o, rfl, huptime, hppm⟩ := exec_metricSet_next h
    cases g <;> simp_all [appends]
  | now => obtain ⟨r, d, q, rfl⟩ := exec_now_next h; simp
  | intervalWait => obtain ⟨r, n, rfl⟩ := exec_intervalWait_next h; simp
  | extRefresh => obtain ⟨r, q, rfl⟩ := exec_extRefresh_next h; simp
  | log | report | emit => cases h; simp [logEvent, report, appends]
  | reset => exact absurd rfl hreset
  | _ => simp_all [isCodec, encode]

end Sys2Proof.Machine

/-! PROOFS. What every step keeps (00_scope.md section 4, 10_state.md section 9, 42_pollloop.md section 3) and the end of
every refresh (41_reader.md R119). -/

namespace Sys2Proof.Machine

variable {s t : State} {i : Instr}

/-- Settles O50: neither a reset, a rule nor a hold writes a parameter. -/
theorem noStepWritesAParameter : Obligations.NoStepWritesAParameter := by
  intro s t h
  cases hreset : s.resetReq with
  | true =>
    cases (step_of_reset hreset).symm.trans h
    rfl
  | false =>
    obtain ⟨i, hruns⟩ | ⟨-, rfl⟩ := runs_or_held_of_step_next hreset h
    · cases hruns <;> rfl
    · rfl

/-- A rule appends its own events to OUT: none, one, or those of a failure. -/
theorem Runs.out_eq (h : Runs s i (.next t)) : ∃ es, t.out = s.out ++ es ∧ es.length ≤ 3 := by
  cases h with
  | plWaitFirst | plWaitLater | plCallx | rdRxb | rdRxendFull | rdRxendTimeout | plCollect | plTally | plHalt =>
    exact ⟨[], (List.append_nil _).symm, Nat.zero_le 3⟩
  | plStart | plIter | rdBegin | rdTxb | rdChkok | plTallyStop => exact ⟨[_], rfl, by simp⟩
  | rdFaultTx | rdFaultRx | rdChkfail => exact ⟨_, rfl, failureEvents_length_le _ _⟩

/-- Settles O51. -/
theorem outOnlyGrows : Obligations.OutOnlyGrows := by
  intro s t h hreset
  obtain ⟨i, hruns⟩ | ⟨-, rfl⟩ := runs_or_held_of_step_next hreset h
  · exact hruns.out_eq
  · exact ⟨[], (List.append_nil _).symm, Nat.zero_le 3⟩

/-- A rule takes one of the edges of R138, or is PL.HALT's. -/
theorem Runs.edge (h : Runs s i (.next t)) : (s.seq, t.seq) ∈ seqEdges ∨ (s.seq = sStopped ∧ t = s) := by
  cases h with
  | plHalt hseq => exact .inr ⟨hseq, rfl⟩
  | rdTxb hseq | plCollect hseq =>
    left
    dsimp only
    rw [hseq]
    split_ifs <;> decide
  | plStart hseq | plWaitFirst hseq | plWaitLater hseq | plIter hseq | rdBegin hseq | plCallx hseq | rdFaultTx hseq
  | rdRxb _ hseq | rdRxendFull hseq | rdRxendTimeout hseq | rdFaultRx hseq | rdChkok hseq | rdChkfail hseq
  | plTally hseq | plTallyStop hseq =>
    left
    dsimp only
    rw [hseq]
    decide

/-- Settles O52. -/
theorem onlyTheSixteenEdges : Obligations.OnlyTheSixteenEdges := by
  intro s t hreset h
  obtain ⟨i, hruns⟩ | ⟨hheld, rfl⟩ := runs_or_held_of_step_next hreset h
  · exact hruns.edge.imp_right fun ⟨hseq, heq⟩ => ⟨.inr hseq, heq⟩
  · exact .inr ⟨.inl hheld, rfl⟩

/-! ## The bound on a refresh -/

theorem refreshLeft_of_tx (hseq : s.seq = sTx) : refreshLeft s = (9 - s.txi.toNat) + 11 := if_pos hseq

theorem refreshLeft_of_rx (hseq : s.seq = sRx) : refreshLeft s = (9 - s.rxlen.toNat) + 2 := by
  simp [refreshLeft, hseq, sTx, sRx]

theorem refreshLeft_of_check (hseq : s.seq = sCheck) : refreshLeft s = 1 := by
  simp [refreshLeft, hseq, sTx, sRx, sCheck]

/-- A rule inside a refresh ends it or lowers the bound (R119). -/
theorem Runs.refresh_progress (hin : inRefresh s = true) (h : Runs s i (.next t)) :
    t.seq = sCollect ∨ (inRefresh t = true ∧ refreshLeft t < refreshLeft s) := by
  have hseq' := inRefresh_iff.mp hin
  cases h with
  | rdFaultTx | rdFaultRx | rdChkok | rdChkfail => exact .inl rfl
  | rdTxb hseq htxi =>
    right
    have hlt : s.txi.toNat < 9 := htxi
    rw [refreshLeft_of_tx hseq]
    split_ifs with hnine
    · exact ⟨rfl, by rw [refreshLeft_of_rx rfl]; omega⟩
    · refine ⟨rfl, ?_⟩
      rw [refreshLeft_of_tx rfl]
      dsimp only
      rw [toNat_succ_of_lt_nine htxi]
      omega
  | rdRxb hlt hseq hrxlen =>
    right
    refine ⟨inRefresh_iff.mpr (.inr (.inl hseq)), ?_⟩
    rw [refreshLeft_of_rx hseq, refreshLeft_of_rx (by exact hseq)]
    dsimp only
    rw [toNat_succ_of_lt_nine hrxlen]
    omega
  | rdRxendFull hseq | rdRxendTimeout hseq =>
    exact .inr ⟨rfl, by rw [refreshLeft_of_rx hseq, refreshLeft_of_check rfl]; omega⟩
  | plStart hseq | plWaitFirst hseq | plWaitLater hseq | plIter hseq | rdBegin hseq | plCallx hseq | plCollect hseq
  | plTally hseq | plTallyStop hseq | plHalt hseq =>
    rw [hseq] at hseq'
    exact absurd hseq' (by decide)

/-- Settles O53. -/
theorem everyRefreshEnds : Obligations.EveryRefreshEnds := by
  refine ⟨fun s t h => ?bound, fun s t hreset hin h => ?progress⟩
  case bound =>
    cases runs_of_exec_next rfl h
    rfl
  case progress =>
    obtain ⟨i, hruns⟩ | ⟨hheld, rfl⟩ := runs_or_held_of_step_next hreset h
    · exact (hruns.refresh_progress hin).imp_right .inl
    · exact .inr (.inr ⟨rfl, hheld⟩)

end Sys2Proof.Machine

/-! PROOFS. Runs of many steps: from reset to the first request byte (70_reset_and_hazards.md R202), a whole refresh
(41_reader.md R118), and a sequence of iterations (42_pollloop.md R139). -/

namespace Sys2Proof.Machine

variable {s t : State}

/-! ## Runs of a machine behind the host's interface -/

section

variable {M : Host.Core} {s t : M.State}

theorem run_succ_of_step (h : M.step s = .next t) (n : Nat) : M.run (n + 1) s = M.run n t := by
  rw [Host.Core.run, h]

/-- A run of several steps from `s` goes on where its first part has ended. -/
theorem run_add_of_run {m : Nat} (h : M.run m s = .next t) (n : Nat) : M.run (m + n) s = M.run n t := by
  induction m generalizing s with
  | zero =>
    cases h
    rw [Nat.zero_add]
  | succ m ih =>
    cases hstep : M.step s with
    | next u =>
      rw [run_succ_of_step hstep] at h
      rw [Nat.succ_add, run_succ_of_step hstep, ih h]
    | fault | refused =>
      rw [Host.Core.run, hstep] at h
      cases h

/-- A run through a sequence of states, each the step of the one before. -/
theorem run_of_steps (f : Nat → M.State) (n : Nat) (h : ∀ k, k < n → M.step (f k) = .next (f (k + 1))) :
    M.run n (f 0) = .next (f n) := by
  induction n with
  | zero => rfl
  | succ n ih =>
    rw [run_add_of_run (ih fun k hk => h k (Nat.lt_succ_of_lt hk)), run_succ_of_step (h n (Nat.lt_succ_self n))]
    rfl

end

/-- A run begins with the rule that has its premises. -/
theorem run_succ_of_runs {i : Instr} {r : Result} {n : Nat} (hreset : s.resetReq = false) (hlegal : s.params.legal = true)
    (hruns : Runs s i (.next t)) (h : Host.Core.run core n t = r) : Host.Core.run core (n + 1) s = r :=
  (run_succ_of_step (M := core) (hruns.step_eq hreset hlegal) n).trans h

/-! ## From reset -/

/-- Settles O44: PL.START, PL.WAIT, PL.ITER and RD.BEGIN, each by its rule. -/
theorem fourOperationsBeforeTheFirstByte : Obligations.FourOperationsBeforeTheFirstByte := by
  intro p e hlegal hcarbon hiterW hcntW
  obtain ⟨v, d, q, hnow⟩ := exists_nowAnswers { State.resetWith p with env := e }
  obtain ⟨v', d', q', hnow'⟩ :=
    exists_nowAnswers { State.resetWith p with draws := d, env := { e with now := q } }
  have hroom {w : Nat} (hw : 1 ≤ w) : 0 + 1 < 2 ^ w := Nat.one_lt_two_pow (Nat.ne_of_gt hw)
  have hrun := run_succ_of_runs rfl hlegal (.plStart rfl hnow) <|
    run_succ_of_runs rfl hlegal (.plWaitFirst rfl rfl) <|
    run_succ_of_runs rfl hlegal (.plIter rfl (hroom hiterW) hnow') <|
    run_succ_of_runs (n := 0) rfl hlegal (.rdBegin rfl hcarbon (hroom hcntW)) rfl
  exact ⟨_, _, hrun, rfl, rfl, rfl, rfl, rfl, rfl⟩

/-! ## A whole refresh -/

/-- After `k` accepted request bytes of a refresh: S_TX, or S_RX when all nine are out. -/
def State.afterSent (s : State) (rest : List TxAnswer) (k : Nat) : State :=
  { s with
    seq := if k = 9 then sRx else sTx, txi := BitVec.ofNat 4 k, out := s.out ++ (Config.req.take k).map .tx
    env := { s.env with tx := List.replicate (9 - k) .accepted ++ rest } }

/-- The buffer `v` with its first `k` bytes those of `b`. -/
def bufferWith (b v : Vector Byte 9) (k : Nat) : Vector Byte 9 :=
  Vector.ofFn fun i => if i.val < k then b[i.val] else v[i.val]

/-- After the first `k` of the bytes `b` are received in S_RX. -/
def State.afterReceived (s : State) (b : Vector Byte 9) (rest : List RxAnswer) (k : Nat) : State :=
  { s with
    seq := sRx, rxlen := BitVec.ofNat 4 k, rxb := bufferWith b s.rxb k
    env := { s.env with rx := (b.toList.drop k).map .byte ++ rest } }

theorem toNat_ofNat_of_lt_nine {k : Nat} (hk : k < 9) : (BitVec.ofNat 4 k).toNat = k :=
  (BitVec.toNat_ofNat ..).trans (Nat.mod_eq_of_lt (by omega))

theorem ofNat_lt_nine {k : Nat} (hk : k < 9) : BitVec.ofNat 4 k < 9#4 := by
  rw [BitVec.lt_def, toNat_ofNat_of_lt_nine hk]
  exact hk

theorem ofNat_succ_eq_nine_iff {k : Nat} (hk : k < 9) : BitVec.ofNat 4 k + 1#4 = 9#4 ↔ k = 8 := by
  have hsucc : (BitVec.ofNat 4 k + 1#4).toNat = k + 1 :=
    (toNat_succ_of_lt_nine (ofNat_lt_nine hk)).trans (congrArg (· + 1) (toNat_ofNat_of_lt_nine hk))
  rw [← BitVec.toNat_inj, hsucc]
  exact Nat.succ_inj

/-- One more byte of the request is the byte REQ has there. -/
theorem req_take_succ {k : Nat} (hk : k < 9) :
    Config.req.take (k + 1) = Config.req.take k ++ [reqByte (BitVec.ofNat 4 k)] := by
  have hbyte : reqByte (BitVec.ofNat 4 k) = Config.req[k] := by
    rw [reqByte, toNat_ofNat_of_lt_nine hk]
    exact List.getD_eq_getElem _ _ hk
  rw [List.take_succ_eq_append_getElem hk, hbyte]

theorem bufferWith_zero (b v : Vector Byte 9) : bufferWith b v 0 = v := by simp [bufferWith]

theorem bufferWith_nine (b v : Vector Byte 9) : bufferWith b v 9 = b := by simp [bufferWith]

theorem bufferWith_succ (b v : Vector Byte 9) {k : Nat} (hk : k < 9) :
    (bufferWith b v k).set k b[k] = bufferWith b v (k + 1) := by
  refine Vector.ext fun i hi => ?_
  obtain hlt | rfl | hgt := Nat.lt_trichotomy i k
  · simp [bufferWith, hlt, hlt.ne', hlt.le]
  · simp [bufferWith]
  · simp [bufferWith, hgt.ne, hgt.not_gt, hgt.not_ge]

section

variable (hreset : s.resetReq = false) (hlegal : s.params.legal = true)
include hreset hlegal

theorem step_afterSent (rest : List TxAnswer) {k : Nat} (hk : k < 9) :
    step (s.afterSent rest k) = .next (s.afterSent rest (k + 1)) := by
  have hseq : (s.afterSent rest k).seq = sTx := if_neg hk.ne
  have hans : (s.afterSent rest k).env.tx = .accepted :: (List.replicate (9 - (k + 1)) .accepted ++ rest) := by
    rw [State.afterSent, show 9 - k = 9 - (k + 1) + 1 by omega, List.replicate_succ, List.cons_append]
  rw [Runs.step_eq (s := s.afterSent rest k) hreset hlegal (.rdTxb hseq (ofNat_lt_nine hk) hans)]
  simp [State.afterSent, req_take_succ hk, ofNat_succ_eq_nine_iff hk, BitVec.ofNat_add]

theorem step_afterReceived (b : Vector Byte 9) (rest : List RxAnswer) {k : Nat} (hk : k < 9) :
    step (s.afterReceived b rest k) = .next (s.afterReceived b rest (k + 1)) := by
  have hidx : (s.afterReceived b rest k).rxlen.toNat = k := toNat_ofNat_of_lt_nine hk
  have hans : (s.afterReceived b rest k).env.rx = .byte b[k] :: ((b.toList.drop (k + 1)).map .byte ++ rest) := by
    simp [State.afterReceived, List.drop_eq_getElem_cons (show k < b.toList.length by simpa using hk)]
  rw [Runs.step_eq (s := s.afterReceived b rest k) hreset hlegal
    (.rdRxb (hidx.trans_lt hk) rfl (ofNat_lt_nine hk) hans)]
  simp only [hidx]
  simp [State.afterReceived, bufferWith_succ b s.rxb hk, BitVec.ofNat_add]

/-- Nine acceptances send the whole request. -/
theorem run_send {rest : List TxAnswer} (hseq : s.seq = sTx) (htxi : s.txi = 0)
    (htx : s.env.tx = List.replicate 9 .accepted ++ rest) :
    Host.Core.run core 9 s = .next { s with
      seq := sRx, txi := 9#4, out := s.out ++ Config.req.map .tx, env := { s.env with tx := rest } } := by
  have hstart : s.afterSent rest 0 = s := by
    change { s with
      seq := sTx, txi := 0, out := s.out ++ [], env := { s.env with tx := List.replicate 9 .accepted ++ rest } } = s
    rw [List.append_nil, ← htx, ← hseq, ← htxi]
  have hrun := run_of_steps (M := core) (s.afterSent rest) 9 fun _ hk => step_afterSent hreset hlegal rest hk
  rwa [hstart] at hrun

/-- Nine bytes delivered fill the buffer. -/
theorem run_receive {b : Vector Byte 9} {rest : List RxAnswer} (hseq : s.seq = sRx) (hrxlen : s.rxlen = 0)
    (hrx : s.env.rx = b.toList.map .byte ++ rest) :
    Host.Core.run core 9 s = .next { s with rxlen := 9#4, rxb := b, env := { s.env with rx := rest } } := by
  have hstart : s.afterReceived b rest 0 = s := by
    have hzero : BitVec.ofNat 4 0 = s.rxlen := hrxlen.symm
    rw [State.afterReceived, bufferWith_zero, List.drop_zero, ← hrx, ← hseq, hzero]
  have hend : s.afterReceived b rest 9 = { s with rxlen := 9#4, rxb := b, env := { s.env with rx := rest } } := by
    rw [State.afterReceived, bufferWith_nine, List.drop_of_length_le (by simp), ← hseq]
    rfl
  have hrun := run_of_steps (M := core) (s.afterReceived b rest) 9 fun _ hk => step_afterReceived hreset hlegal b rest hk
  rwa [hstart, hend] at hrun

end

/-- Settles O54: RD.BEGIN, the nine bytes out, the nine bytes in, and RD.RXEND. -/
theorem wholeRefreshTransfersTheFrames : Obligations.WholeRefreshTransfersTheFrames := by
  intro s b txRest rxRest hreset hlegal hseq hrd hlt htx hrx
  refine run_succ_of_runs hreset hlegal (.rdBegin hseq hrd hlt) ?_
  rw [run_add_of_run (M := core) (run_send (by exact hreset) (by exact hlegal) rfl rfl (by exact htx)) 10]
  rw [run_add_of_run (M := core) (run_receive (by exact hreset) (by exact hlegal) rfl rfl (by exact hrx)) 1]
  refine run_succ_of_runs (n := 0) hreset hlegal (.rdRxendFull rfl rfl) ?_
  rw [List.append_assoc]
  rfl

/-! ## A sequence of iterations -/

/-- One finished iteration, played through PL.TALLY: FAILCNT and the stop (R136). -/
theorem tallyOutcome_spec (s : State) (o : Bool) :
    (tallyOutcome s o).failcnt = (if o then 0 else s.failcnt + 1) ∧ (tallyOutcome s o).params = s.params ∧
    ((tallyOutcome s o).seq = sStopped ↔ (tallyOutcome s o).failcnt = s.params.maxFails) := by
  by_cases hstop : tallied { s with seq := sTally, allok := o } = s.params.maxFails
  · have hexec := (Runs.plTallyStop rfl hstop).exec_eq
    rw [tallyOutcome, hexec]
    exact ⟨rfl, rfl, iff_of_true rfl hstop⟩
  · have hexec := (Runs.plTally rfl hstop).exec_eq
    rw [tallyOutcome, hexec]
    exact ⟨rfl, rfl, iff_of_false nofun hstop⟩

theorem failSuffix_concat (os : List Bool) (o : Bool) :
    failSuffix (os ++ [o]) = if o then 0 else failSuffix os + 1 := by
  cases o <;> simp [failSuffix]

/-- FAILCNT is the failed suffix after any sequence of outcomes, whether or not one of them has reached the threshold. -/
theorem foldl_tallyOutcome (s : State) (hzero : s.failcnt = 0) (os : List Bool) :
    (os.foldl tallyOutcome s).failcnt = failSuffix os ∧ (os.foldl tallyOutcome s).params = s.params := by
  induction os using List.reverseRecOn with
  | nil => exact ⟨hzero, rfl⟩
  | append_singleton os o ih =>
    obtain ⟨hcount, hparams, -⟩ := tallyOutcome_spec (os.foldl tallyOutcome s) o
    rw [List.foldl_concat, failSuffix_concat, hcount, hparams, ih.1]
    exact ⟨rfl, ih.2⟩

/-- Settles O55: the last outcome stops the block exactly when the count it leaves is the threshold. -/
theorem failcntIsTheFailedSuffix : Obligations.FailcntIsTheFailedSuffix := by
  intro s os hzero _ _
  obtain ⟨hcount, -⟩ := foldl_tallyOutcome s hzero os
  refine ⟨hcount, fun hne => ?_⟩
  obtain ⟨os, o, rfl⟩ := (List.eq_nil_or_concat' os).resolve_left hne
  obtain ⟨-, hparams⟩ := foldl_tallyOutcome s hzero os
  obtain ⟨-, -, hstop⟩ := tallyOutcome_spec (os.foldl tallyOutcome s) o
  rw [← hcount, ← hparams, List.foldl_concat]
  exact hstop

end Sys2Proof.Machine
